-- ==== Sys2Proof/Word.lean ====
section
/-!
DEFINITION. Word.lean: the word types of the BPX8120 and their plainest arithmetic.
Registers are 48-bit words (R13, R99); memories are bytes (R8, R129).
-/
namespace Sys2Proof

/-- One byte of a memory, a frame or an image. -/
abbrev Byte := BitVec 8

/-- The data [47:0] of one BAR0 register (R90, R99). -/
abbrev Reg := BitVec 48

/-- A saturating counter of `w` bits after adding `n` (the spec's "saturating"). -/
def satAdd (w n a : Nat) : Nat := min (2 ^ w - 1) (a + n)

/-- A wrapping counter of `w` bits after adding `n` (the spec's "wrapping"). -/
def wrapAdd (w n a : Nat) : Nat := (a + n) % 2 ^ w

/-- Division rounding up. -/
def ceilDiv (a b : Nat) : Nat := (a + (b - 1)) / b

end Sys2Proof
end

