-- ==== Sys2Proof/Syntax.lean ====
section
/-!
DEFINITION. Syntax.lean: the commands of the block, one constructor per row of spec/opcode_table.json.
The table gives its rows no fields: a row's operands are what the rule it names lets the sender choose (an address, a
value, a frame) or what the event observes (a sensor reading, a measured period, an engine's outcome).
-/
namespace Sys2Proof

/-- The paths by which a register is reached: PCIe port, Uasyn link, a command ring (R103), the control cores (R382). -/
inductive Path
  | pcie | uasyn | ring | core
deriving DecidableEq, Repr

/-- The two redundancy legs of a flow, and the two paths of egress (R185, R208). -/
inductive Leg
  | a | b
deriving DecidableEq, Repr

/-- A response code of the Concourse (R134). -/
inductive Resp
  | okay | decerr | permerr | frozen | mreset | timeout
deriving DecidableEq, Repr

/-- What a Concourse violation touched (FAB.VIOL_STAT.KIND, R142). -/
inductive ViolKind
  | page | hbm | gallery
deriving DecidableEq, Repr

/-- A unit whose checked arithmetic reports a residue mismatch (R347, R354). -/
inductive CheckedUnit
  | bay (n : Fin 16) (ctu : Nat) (stage : Fin 10)
  | mze (n : Fin 8) (stage : Fin 3)
  | paf (slot : Fin 8) (sub : Fin 16) (stripe : Nat)
deriving DecidableEq, Repr

/-- A checked operation at a checker (R345, R346), with the residue codes that its operands carry: of a right shift also the dropped bits (of a
round and shift, those of the rounded sum), of a clip the code of the value selected, of an absolute value whether its operand is negative. -/
inductive CheckedOp
  | add (a b : BitVec 3)
  | sub (a b : BitVec 3)
  | mul (a b : BitVec 3)
  | neg (a : BitVec 3)
  | shl (a : BitVec 3) (s : Nat)
  | shr (a : BitVec 3) (s dropped : Nat)
  | roundShr (a : BitVec 3) (s dropped : Nat)
  | clip (selected : BitVec 3)
  | abs (a : BitVec 3) (negative : Bool)
deriving DecidableEq, Repr

/-- What a checker reports: its unit, the operation, and the value that came out (R346). -/
structure CheckReport where
  unit  : CheckedUnit
  op    : CheckedOp
  value : Int
deriving DecidableEq, Repr

/-- A lockstep pair (R348, R351, R354). `mze` is the entropy coder of an MZE engine. -/
inductive LockUnit
  | bay (n : Fin 16) (ctu : Nat)
  | eau (n : Fin 16)
  | floor (n : Fin 16) (ctu : Nat)
  | mze (n : Fin 8)
deriving DecidableEq, Repr

/-- An engine whose faults are counted toward retirement (R353, R354). -/
inductive PooledEngine
  | bay (n : Fin 16)
  | mze (n : Fin 8)
deriving DecidableEq, Repr

/-- The consumer classes of the Dispatcher, in its order of service (R323). -/
inductive Consumer
  | bays | mze | assembly | egs
deriving DecidableEq, Repr

/-- Which block records a bay's start work loads: its stripe's, the row above it, the co-located ones of the picture before (R242, R251). -/
inductive RecordPlace
  | own | above | before
deriving DecidableEq, Repr

/-- A master's write of a Gallery word: the enabled bytes and the data (R357). -/
structure GalWrite where
  enable : BitVec 8
  data   : BitVec 64
deriving DecidableEq, Repr

/-- The second read of a beat, and what the stack reported of it: corrected on the die, or left uncorrected (R359, R360). -/
structure Reread where
  beat     : BitVec 30
  onDie    : Bool := false
  onDieBad : Bool := false
deriving DecidableEq, Repr

/-- The merge read of a beat: its flipped bits and what the stack reported of it (R359, R423). -/
structure MergeRead where
  beat     : BitVec 30
  flips    : BitVec 266 := 0
  onDie    : Bool := false
  onDieBad : Bool := false
deriving DecidableEq, Repr

/-- Who reads a memory word that may be corrupt (R361, R362). A word read by `bayOwn` or `mzeOwn` lies in a private array or in the engine's Gallery
space; a `blockRecord` is one of those that the bay's start work loads; `egsPacket` names the packet by its place in the queue; `mergeRead` is the
HBM controller itself (R423). -/
inductive Reader
  | bayReference (bay : Fin 16) (picture : Nat) (ctus : List Nat)
  | baySource (bay : Fin 16) (ctus : List Nat)
  | bayOwn (bay : Fin 16) (array : Bool)
  | mzeOwn (engine : Fin 8) (array : Bool)
  | mzeSource (engine : Fin 8) (slices : List (Nat × Nat))
  | pafSource (slot : Fin 8) (sub : Fin 16) (stripe : Nat)
  | pafLineStore (slot : Fin 8) (sub : Fin 16) (stripe : Nat)
  | pafTable (slot : Fin 8) (table : Fin 2) (node : Nat)
  | ingMerge (slot : Fin 8) (sub : Fin 16) (line : Nat)
  | blockRecord (bay : Fin 16) (place : RecordPlace) (row col : Nat)
  | stripeSummary (slot : Fin 8) (sub : Fin 16) (picture stripe : Nat)
  | rateTable (slot : Fin 8)
  | dspSlot (index : Nat) (bothCopies : Bool)
  | dspTag (index : Nat) (bothCopies : Bool)
  | egsPacket (queue : Fin 8192) (place : Nat)
  | controlCore (core : Fin 4)
  | hostRead
  | crcScan
  | mergeRead
deriving DecidableEq, Repr

/-- The Announce data set of one foreign master (IEEE 1588, named by R165), compared field by field. -/
structure Announce where
  priority1     : Nat
  clockClass    : Nat
  accuracy      : Nat
  variance      : Nat
  priority2     : Nat
  identity      : BitVec 64
  stepsRemoved  : Nat
  portNumber    : BitVec 16
  syncLog       : Int
  sender        : BitVec 80 := 0
  intervalLog   : Int := 0
deriving DecidableEq, Repr

/-- What the time processor sees of a PTP message before its content: the profile it is of and its domain (R164, R165). -/
structure PtpFrom where
  dot1as : Bool
  domain : BitVec 8
deriving DecidableEq, Repr

/-- A PTP message as a port hears it. -/
structure PtpHeard where
  port  : Fin 4
  from' : PtpFrom
deriving DecidableEq, Repr

/-- The frame classes that a port's MAC tells apart after its length, FCS and tag checks (R164, R204, R208). Of an ancillary packet, the
bytes of each ANC data packet it carries as RFC 8331 lays them out (R214); of a PTP message, whether it is a Pdelay_Req. -/
inductive RxKind
  | pause
  | arpRequest (target : BitVec 32)
  | igmpQuery
  | ptp (from' : PtpFrom) (pdelayReq : Bool)
  | audio (pt : Nat) (rtp : BitVec 32) (seq : BitVec 16) (payload : List Byte)
  | ancillary (pt : Nat) (rtp : BitVec 32) (seq : BitVec 32) (packets : List (List Byte))
  | video
  | other
deriving DecidableEq, Repr

/-- A frame received on a port (R204, R208), with the FEC's codewords since the port's previous frame (R205): corrected, beyond
correction, and the symbols corrected. -/
structure RxFrame where
  fecCorr   : Nat
  fecUncorr : Nat
  fecSym    : Nat
  size   : Nat
  fcsOk  : Bool
  tags   : Nat
  vid    : BitVec 12
  dstMac : BitVec 48
  srcMac : BitVec 48
  srcIp  : BitVec 32
  dstIp  : BitVec 32
  udp    : BitVec 16
  kind   : RxKind
deriving DecidableEq, Repr

/-- One sample row data segment of an ST 2110-20 packet (R212, R228): its line, its first pixel, its pixels, its bytes. -/
structure Srd where
  line  : Nat
  pixel : Nat
  field : Bool
  bytes : List Byte
deriving DecidableEq, Repr

/-- A video packet after its MAC and UDP headers (R209, R216, R218). `burst` and `vrx` are the measured peak burst and
virtual receive buffer occupancy of the picture so far (R215). -/
structure VideoPacket where
  pt    : Nat
  rtp   : Nat
  seq   : Nat
  srds  : List Srd
  burst : Nat
  vrx   : Nat
deriving DecidableEq, Repr

/-- What one lane's adaptation would choose, before the clamp of R195: CTLE code and DFE taps 1 to 8. -/
structure LaneAdapt where
  ctle : Int
  taps : Vector Int 8
deriving DecidableEq, Repr

/-- How an INIT failed (R76, R426): the failing step, and for step 2 the stack and its failing channel. -/
structure InitFail where
  step    : Nat
  stack   : Fin 2
  channel : Fin 16
deriving DecidableEq, Repr

/-- The INIT step that exceeded its budget, counted from 0 (R76, R426); for step 2 the stack and channel whose training was not done; the time of
the training and the mapped lanes of stack 0 plus 256 times those of stack 1. -/
structure InitStop where
  step    : Fin 5
  stack   : Fin 2 := 0
  channel : Fin 16 := 0
  trainUs : Nat := 0
  repairs : Nat := 0
deriving DecidableEq, Repr

/-- How a stripe's or slice's coded data left an engine: what the codec standards fix, observed by this model (R255, R265). -/
structure Coded where
  cycles : Nat
  bytes  : List Byte
deriving DecidableEq, Repr

/-- A split that leads to a coding unit (R262, R278). -/
inductive Split
  | quad | binary | ternary
deriving DecidableEq, Repr

/-- How an intra coding unit predicts (R262, R278). -/
inductive IntraTool
  | plain | mip | mrl | isp
deriving DecidableEq, Repr

/-- How an inter coding unit predicts (R262, R278): `uni` and `bi` code their vectors beside a predictor (AMVP). -/
inductive InterTool
  | merge | mmvd | affine | sbtmvp | gpm | ciip | uni | bi
deriving DecidableEq, Repr

/-- The transform of a block (R262, R278). -/
inductive TransformKind
  | dct2 | mts | lfnst | sbt
deriving DecidableEq, Repr

/-- A vector into reference `ref` of the picture's list, in sixteenths of a luma sample (R273, R278). -/
structure Motion where
  ref : Nat
  x   : Int
  y   : Int
deriving DecidableEq, Repr

/-- The prediction of a coding unit: the skip of R276 with its merge index, intra by tool and mode, or inter with every vector it reads at. -/
inductive Prediction
  | skip (merge : Nat)
  | intra (tool : IntraTool) (mode : Nat)
  | inter (tool : InterTool) (motion : List Motion)
deriving DecidableEq, Repr

/-- A transform block with residual: its bits, its transform, and how many of the lowest frequencies of each direction hold its coefficients. -/
structure TransformBlock where
  bits   : Nat
  kind   : TransformKind
  extent : Nat
deriving DecidableEq, Repr

/-- A coding unit as a bay coded it: its place in the CTU and its size in luma samples, the splits that led to it, whether an asymmetric motion
partition cuts it (HEVC), its prediction, the intra modes tested for it, the bits of its syntax without residual, and its blocks. -/
structure CodingUnit where
  x       : Nat
  y       : Nat
  w       : Nat
  h       : Nat
  splits  : List Split := []
  cut     : Bool := false
  pred    : Prediction
  tested  : Nat := 0
  bits    : Nat
  blocks  : List TransformBlock := []
deriving DecidableEq, Repr

/-- A CTU as a bay coded it (R255, R256, R276, R278): the bits before its units, whether SAO and ALF are on for it, whether its coefficients were
decided by a rate-distortion trellis, and its coding units in order. -/
structure CtuCode where
  head    : Nat := 0
  sao     : Bool := false
  alf     : Bool := false
  trellis : Bool := false
  units   : List CodingUnit
deriving DecidableEq, Repr

/-- How a stripe left a bay: its coded data, and the CTUs since the last landing (R255, R256). -/
structure StripeCoded extends Coded where
  ctus : List CtuCode
deriving DecidableEq, Repr

/-- The commands: one constructor per row of spec/opcode_table.json, in the table's order. -/
inductive Instr
  -- power, pins and heat (R32 to R46)
  | vinAuxRise
  | vinMainRise
  | resetNRise
  | resetNLow (ns : Nat)
  | vinAuxLoss
  | railCheck (mainMv mainDa auxMv auxCa : Nat)
  | pciePerstNChange (high : Bool)
  | thermalSample (die : Vector (BitVec 8) 16) (hbm0 hbm1 : BitVec 8)
  | throttleEntry
  | throttleRelease
  | thermalTrip
  -- bring-up and trust (R54 to R89)
  | bootRomReady
  | stageWriteBar2 (offset : BitVec 28) (bytes : List Byte)
  | stageDataWrite (path : Path) (data : Reg)
  | bootGo (path : Path)
  | verifyDone (us : Nat)
  | initDone (us : Nat) (trainUs : Nat) (repairs : Nat) (defaults : List (Nat × Reg)) (fail : Option InitFail)
  | initStepTimeout (step : InitStop) (us : Nat)
  | rbCommit (path : Path)
  | ownerProg (path : Path) (confirm : BitVec 16)
  | fuseProgDone
  | attGo (path : Path)
  | attReportDone
  | attDataRead (path : Path)
  | otpDataRead (path : Path)
  -- registers, BARs, Uasyn, shadows (R90 to R116)
  | registerWrite (path : Path) (addr : BitVec 24) (data : BitVec 64) (size : Nat) (be : BitVec 8) (late : Bool := false)
  | bar0BadSizeRead (addr : BitVec 24) (size : Nat) (late : Bool := false)
  | bar2Read (offset : BitVec 28) (len : Nat) (resp : Resp)
  | bar2Write (offset : BitVec 28) (bytes : List Byte) (resp : Resp)
  | bar4Read (offset : BitVec 20) (len : Nat)
  | bar4Write (offset : BitVec 20) (bytes : List Byte)
  | uasynRead (frame : List Byte)
  | uasynWrite (frame : List Byte)
  | uasynFrameAbort (bits : Nat)
  | shadowArm (path : Path) (page : Fin 202) (view : Bool)
  | shadowDisarm (path : Path) (page : Fin 202) (view : Bool) (atCommit : Bool)
  | shadowCommit (page : Fin 202)
  | softReset (path : Path) (page : Fin 202)
  | eventClear (path : Path) (page : Fin 202) (bits : BitVec 16) (recurs : BitVec 16)
  -- command rings (R117 to R125, R285)
  | commandFetch (fetched : Option (Vector (BitVec 64) 8))
  | regWriteList (entries : List (BitVec 64 × BitVec 64)) (late : Option Nat := none)
  | regReadList (addrs : List (BitVec 64)) (late : Option Nat := none)
  | hbmRead (late : Option Nat := none)
  | hbmWrite (bytes : List Byte) (late : Option Nat := none)
  | arcSetSei (payload : List Byte)
  | heartbeat
  -- Concourse (R127 to R153)
  | defaultHit (master : Fin 31) (addr : BitVec 36)
  | fabTimeout (master : Fin 31) (id : Fin 64) (addr : BitVec 36)
  | masterViolation (master : Fin 31) (kind : ViolKind) (write : Bool) (addr : BitVec 36)
  | drainDone (master : Fin 31)
  | thaw (path : Path) (master : Fin 32) (reset : Bool)
  | keeperBridgeTimeout (frame : List Byte)
  -- PCIe endpoint (R98, R192)
  | pcieHotReset
  | pcieD3hot
  | pcieD0Return
  | pcieLinkUp (rate width : Nat)
  -- time base (R154 to R184)
  | ptpSecond
  | pllLoss (root keeper : Bool)
  | offsetSample (heard : PtpHeard) (t1 t2 cs : Int) (firstCyc : Nat)
  | delaySample (heard : PtpHeard) (t1 t2 t3 t4 cs cd linkDelay : Int) (firstCyc : Nat)
  | pathHoldEnd
  | announceReceive (heard : PtpHeard) (data : Option Announce)
  | sourceLost (declared : Bool)
  | delayReqSend (port : Fin 4)
  | timeStep (path : Path) (neg : Bool) (ns : BitVec 30)
  | ptpModeWrite (path : Path) (mode : BitVec 2)
  | ptpCfgWrite (path : Path) (data : Reg)
  | refPeriodEnd (periodPs : Option Nat)
  | refQualified
  | refEdgeOffset
  -- lanes, ports and MACs (R185 to R206, R482)
  | laneCalDone (port : Fin 4) (trim : Vector (BitVec 24) 4)
  | signalDetect (port : Fin 4)
  | cdrLock (port : Fin 4)
  | adaptConverged (port : Fin 4) (lanes : Vector LaneAdapt 4)
  | alignComplete (port : Fin 4)
  | adaptFail (port : Fin 4)
  | linkDown (port : Fin 4) (cdrLost : BitVec 4)
  | idleFreeze (port : Fin 4) (payload lost : Bool := false)
  | adaptResume (port : Fin 4) (lost : Bool := false)
  | speedChangeRelock (port : Fin 4)
  | deepRestExit (port : Fin 4)
  | laneTestWrite (path : Path) (port : Fin 4) (data : Reg)
  | laneEnableWrite (path : Path) (port : Fin 4) (enable : Bool)
  | frameReceive (port : Fin 4) (frame : RxFrame)
  -- Ingest Hall (R207 to R233)
  | ingPacket (flow : Fin 64) (leg : Leg) (pkt : VideoPacket)
  | legQuiet (flow : Fin 64) (leg : Leg)
  | lineMergeTimeout (slot : Fin 8) (sub : Fin 16) (line : Nat)
  | stripeWindowClose (slot : Fin 8) (sub : Fin 16) (stripe : Nat)
  | stripeAnnounce (slot : Fin 8) (sub : Fin 16)
  | announcementRelease
  | chinReacquire (path : Path) (slot : Fin 8)
  -- PAF (R234 to R249)
  | pafPassDone (slot : Fin 8) (sub : Fin 16) (stripe : Nat) (faulted : Bool)
  | lutLoad (path : Path) (slot : Fin 8) (table : Fin 2)
  | lutLoadDone (slot : Fin 8) (table : Fin 2) (resp : Resp) (uncorrectable : Bool)
  -- Stair and Dispatcher (R289 to R327)
  | pictureBoundary (slot : Fin 8)
  | rebuildDone (slot : Fin 8)
  | poolPeriod (group : Fin 8)
  | dispatchTask (consumer : Consumer)
  | relevelTick
  | landing (bay : Fin 16) (used : Nat) (ctus : List CtuCode)
  | stripeComplete (bay : Fin 16) (coded : StripeCoded)
  | startLimitExpiry (task : Fin 4096)
  | deadlineExpiry (bay : Fin 16)
  | budgetBreach (bay : Fin 16) (ctu : Nat)
  | residueMismatch (report : CheckReport)
  | replayDone (bay : Fin 16) (again : Bool) (equal : Bool)
  | lockstepFault (unit : LockUnit)
  | floorSynthStart
  | floorSynthDone (path : Fin 16)
  | assemblyDone (unit : Fin 16) (cycles : Nat)
  | bayEnableWrite (path : Path) (bay : Fin 16) (enable : Bool)
  | spanRequest (path : Path) (target : BitVec 2) (quietCtu : Bool)
  | spanBoundary
  -- mezzanine (R328 to R343)
  | mezzTaskDone (engine : Fin 8) (coded : Coded)
  | mzFloorPoint (task : Fin 4096)
  | mzmapLoad (path : Path) (slot : Fin 8) (out : Fin 16)
  | mzmapLoadDone (slot : Fin 8) (out : Fin 16) (resp : Resp)
  | mzeEnableWrite (path : Path) (engine : Fin 8) (enable : Bool)
  -- egress (R365 to R412)
  | packetTaskDone (task : Fin 4096)
  | packetRelease (queue : Fin 8192)
  | spillReturn (queue : Fin 8192)
  | frameSelect (port : Fin 4)
  | gateEntryChange (port : Fin 4)
  | gateListStart (port : Fin 4)
  | abortPending (path : Path) (port : Fin 4) (atStart : Bool)
  | shapeWrite (path : Path) (addr : BitVec 24) (data : Reg)
  -- check units and scans (R380 to R387)
  | crcFeed (path : Path) (unit : Fin 8) (data : Reg)
  | crcReset (path : Path) (unit : Fin 8) (data : Reg)
  | valloRead (path : Path) (unit : Fin 8)
  | scanStart (path : Path) (unit : Fin 8)
  | scanDone
  | scanError (fed : Nat) (resp : Resp)
  | scanAbort (path : Path) (fed : Nat) (lastByte : Bool)
  -- counters and latched reads (R161, R448 to R463)
  | counterWrap (counter : Fin 512) (written : Bool)
  | clearAll (path : Path)
  | timeSecRead (path : Path)
  | offsetSecRead (path : Path)
  | flogW0Read (path : Path)
  -- coded arrays and memory (R355 to R363, R413 to R428)
  | galleryReadEcc (offset : BitVec 26) (flips : BitVec 72) (reader : Reader)
  | eccWriteback (offset : BitVec 26) (masterWrites : Option GalWrite)
  | scrubWord (offset : BitVec 26) (flips : BitVec 72)
  | hbmReadEcc (addr : BitVec 35) (flips : BitVec 266) (onDie : Bool) (onDieBad : Bool) (reader : Reader)
  | hbmRereadDone (flips : BitVec 266) (report : Reread) (reader : Reader)
  | refreshIntervalEnd (pc : Fin 64)
  | refreshDone (pc : Fin 64)
  | hbmTempCrossing (stack : Fin 2) (above : Bool)
  | selfRefreshEntry (channel : Fin 32)
  | selfRefreshExit (channel : Fin 32) (accepted : Nat)
  | writeBatch (pc : Fin 64)
  | mergeReadDone (pc : Fin 64) (read : MergeRead)
  -- audio (R429 to R447)
  | micAbsent (mic : Fin 16)
  | micResume (mic : Fin 16)
  | tdmFrameStart (port : Fin 4) (bclks : Nat) (slots : List Bool)
  | portStall (port : Fin 4)
  | wclkPeriodEnd (periodPs : Option Nat)
  | tdmEnableWrite (path : Path) (port : Fin 4) (enable : Bool)
  -- keeper and resets (R464 to R472)
  | watchdogExpiry (core : Fin 4) (signal : Bool)
  | warmReset (path : Path) (confirm : BitVec 16)
  | coldReset (path : Path) (confirm : BitVec 16)
  | coldResetResume
  | vinMainLoss
  | watchdogProgress (core : Fin 4)
  | faultRecentExpiry (engine : PooledEngine)
  | ppsOutFall
  | eyeMeasurement (lane : Fin 24) (height width : BitVec 8)
deriving DecidableEq, Repr

end Sys2Proof
end

