-- ==== Sys2Proof/Machine/RegMap.lean ====
section
/-!
DEFINITION. Machine/RegMap.lean: every register of the 202 pages, as the register tables of the spec give them (R109, R474 and
each chapter's "Registers"): offset, instances, fields, access type, reset value and accepted values. One row per register.
-/
namespace Sys2Proof.Machine

/-- Access types (spec 00, "How values and names are written"). -/
inductive Acc
  | ro | rw | rws | w1c | wo
deriving DecidableEq, Repr

/-- The values a write of a field may carry; any other is refused with CODE DECODE_ERROR (R7 and the field's own row). -/
inductive Lim
  | any
  | range (lo hi : Nat)
  | zeroOr (lo hi : Nat)
deriving DecidableEq, Repr

/-- One field of a register: its lowest bit, its width, access, reset value and accepted values. -/
structure FieldDesc where
  lo    : Nat
  w     : Nat
  acc   : Acc
  reset : Nat
  lim   : Lim
deriving DecidableEq, Repr

/-- What selects the object behind a register that shows one of many (QUEn.SEL, ASM.OD_SEL, PMC.WIN, ...). -/
inductive Win
  | none | que | od | pmc | seal | gate | hbm | ch | rx | tx | ts
deriving DecidableEq, Repr

/-- One register, or `count` registers at `off`, `off + stride`, ... of a page. -/
structure RegDesc where
  off    : Nat
  count  : Nat
  stride : Nat
  win    : Win
  fields : List FieldDesc
deriving DecidableEq, Repr

/-- The page families of R474. -/
inductive PageKind
  | dir | kpr | boot | sec | hif | fab | pmc | chk | lane | mac | pcie | sds | ptp | tsu | clk | ref | chin | flow | paf | bay | arcc | eau | mze | dsp | stc | asm | seal | gate | shp | que | hbm | gal | pdm | tdm | audc
deriving DecidableEq, Repr

/-- One row of the page table of R474, with the reset classes of the page's events in bit order (R458, R478). -/
structure PageInfo where
  kind     : PageKind
  subsys   : Nat
  page     : Nat
  count    : Nat
  index    : Nat
  typ      : Nat
  features : Nat
  commit   : Nat
  events   : List Nat
deriving DecidableEq, Repr

/-- The common header of every page (R109 to R116). -/
def headerRegs : List RegDesc := [
  ⟨0x0, 1, 0x8, .none, [⟨32, 4, .ro, 0, .any⟩, ⟨16, 16, .ro, 0, .any⟩, ⟨8, 8, .ro, 0, .any⟩, ⟨0, 8, .ro, 1, .any⟩]⟩,
  ⟨0x8, 1, 0x8, .none, [⟨40, 8, .ro, 0, .any⟩, ⟨0, 32, .ro, 0, .any⟩]⟩,
  ⟨0x10, 1, 0x8, .none, [⟨3, 1, .rw, 0, .any⟩, ⟨2, 1, .ro, 0, .any⟩, ⟨1, 1, .rw, 0, .any⟩, ⟨0, 1, .rw, 1, .any⟩]⟩,
  ⟨0x18, 1, 0x8, .none, [⟨16, 32, .ro, 0, .any⟩, ⟨12, 4, .ro, 0, .any⟩, ⟨3, 9, .ro, 0, .any⟩]⟩,
  ⟨0x20, 1, 0x8, .none, [⟨0, 16, .w1c, 0, .any⟩]⟩,
  ⟨0x28, 1, 0x8, .none, [⟨0, 16, .rw, 0, .any⟩]⟩,
  ⟨0x30, 1, 0x8, .none, [⟨0, 48, .rw, 0, .any⟩]⟩,
  ⟨0x38, 1, 0x8, .none, [⟨32, 16, .ro, 0, .any⟩, ⟨29, 3, .ro, 0, .any⟩, ⟨24, 4, .ro, 0, .any⟩, ⟨3, 1, .rw, 0, .any⟩, ⟨2, 1, .wo, 0, .any⟩, ⟨1, 1, .wo, 0, .any⟩, ⟨0, 1, .ro, 0, .any⟩]⟩]

/-- The block registers of page DIR (spec 22 R480). -/
def dirRegs : List RegDesc := [
  ⟨0x40, 202, 0x8, .none, [⟨36, 3, .ro, 0, .any⟩, ⟨32, 4, .ro, 0, .any⟩, ⟨24, 8, .ro, 0, .any⟩, ⟨8, 16, .ro, 0, .any⟩, ⟨0, 8, .ro, 0, .any⟩]⟩,
  ⟨0x700, 1, 0x8, .none, [⟨16, 16, .ro, 0xca, .any⟩, ⟨0, 16, .ro, 1, .any⟩]⟩]

/-- The block registers of page KPR (spec 20 R462-R471, 02 R39-R46, 05 R152, 06 R161). -/
def kprRegs : List RegDesc := [
  ⟨0x40, 1, 0x8, .none, [⟨16, 16, .wo, 0, .any⟩, ⟨2, 1, .wo, 0, .any⟩, ⟨0, 2, .wo, 0, .range 1 2⟩]⟩,
  ⟨0x48, 1, 0x8, .none, [⟨32, 16, .ro, 0, .any⟩, ⟨16, 16, .ro, 0, .any⟩, ⟨4, 1, .ro, 0, .any⟩, ⟨3, 1, .ro, 0, .any⟩, ⟨0, 3, .ro, 0, .any⟩]⟩,
  ⟨0x50, 1, 0x8, .none, [⟨16, 1, .rw, 0, .any⟩, ⟨0, 16, .rw, 0x64, .range 10 10000⟩]⟩,
  ⟨0x58, 1, 0x8, .none, [⟨32, 16, .ro, 0, .any⟩, ⟨0, 4, .ro, 0, .any⟩]⟩,
  ⟨0x60, 1, 0x8, .none, [⟨32, 1, .ro, 1, .any⟩, ⟨0, 32, .ro, 0, .any⟩]⟩,
  ⟨0x68, 1, 0x8, .none, [⟨0, 32, .rw, 0, .any⟩]⟩,
  ⟨0x70, 4, 0x8, .none, [⟨0, 48, .ro, 0, .any⟩]⟩,
  ⟨0x100, 1, 0x8, .none, [⟨40, 8, .ro, 0, .any⟩, ⟨32, 8, .ro, 0, .any⟩, ⟨24, 8, .ro, 0, .any⟩, ⟨16, 4, .ro, 0, .any⟩, ⟨3, 1, .ro, 0, .any⟩, ⟨2, 1, .ro, 0, .any⟩, ⟨1, 1, .ro, 0, .any⟩, ⟨0, 1, .ro, 0, .any⟩]⟩,
  ⟨0x108, 1, 0x8, .none, [⟨8, 8, .rw, 5, .range 2 20⟩, ⟨0, 8, .rw, 0x64, .range 70 100⟩]⟩,
  ⟨0x110, 1, 0x8, .none, [⟨36, 12, .ro, 0, .any⟩, ⟨24, 12, .ro, 0, .any⟩, ⟨12, 12, .ro, 0, .any⟩, ⟨0, 12, .ro, 0, .any⟩]⟩,
  ⟨0x118, 1, 0x8, .none, [⟨0, 31, .ro, 0, .any⟩]⟩,
  ⟨0x120, 1, 0x8, .none, [⟨9, 1, .wo, 0, .any⟩, ⟨8, 1, .wo, 0, .any⟩, ⟨0, 5, .wo, 0, .any⟩]⟩,
  ⟨0x128, 1, 0x8, .none, [⟨0, 48, .ro, 0, .any⟩]⟩,
  ⟨0x130, 1, 0x8, .none, [⟨47, 1, .ro, 0, .any⟩, ⟨16, 30, .ro, 0, .any⟩, ⟨0, 16, .ro, 0, .any⟩]⟩]

/-- The block registers of page BOOT (spec 03 R54-R76, 20). -/
def bootRegs : List RegDesc := [
  ⟨0x40, 1, 0x8, .none, [⟨0, 25, .rw, 0, .range 0 25165824⟩]⟩,
  ⟨0x48, 1, 0x8, .none, [⟨0, 1, .wo, 0, .any⟩]⟩,
  ⟨0x50, 1, 0x8, .none, [⟨40, 8, .ro, 0, .any⟩, ⟨32, 8, .ro, 0, .any⟩, ⟨16, 16, .ro, 0, .any⟩, ⟨12, 1, .ro, 0, .any⟩, ⟨10, 2, .ro, 0, .any⟩, ⟨4, 4, .ro, 0, .any⟩, ⟨0, 4, .ro, 0, .any⟩]⟩,
  ⟨0x58, 1, 0x8, .none, [⟨0, 25, .rw, 0, .any⟩]⟩,
  ⟨0x60, 1, 0x8, .none, [⟨0, 48, .wo, 0, .any⟩]⟩,
  ⟨0x68, 1, 0x8, .none, [⟨24, 24, .ro, 0, .any⟩, ⟨0, 24, .ro, 0, .any⟩]⟩]

/-- The block registers of page SEC (spec 03 R78-R89). -/
def secRegs : List RegDesc := [
  ⟨0x40, 1, 0x8, .none, [⟨0, 9, .rw, 0, .any⟩]⟩,
  ⟨0x48, 1, 0x8, .none, [⟨0, 32, .ro, 0, .any⟩]⟩,
  ⟨0x50, 8, 0x8, .none, [⟨0, 32, .rw, 0, .any⟩]⟩,
  ⟨0x90, 8, 0x8, .none, [⟨0, 32, .rw, 0, .any⟩]⟩,
  ⟨0xd0, 1, 0x8, .none, [⟨17, 1, .wo, 0, .any⟩, ⟨16, 1, .wo, 0, .any⟩, ⟨0, 16, .wo, 0, .any⟩]⟩,
  ⟨0xd8, 1, 0x8, .none, [⟨10, 1, .ro, 0, .any⟩, ⟨9, 1, .ro, 0, .any⟩, ⟨8, 1, .ro, 0, .any⟩, ⟨0, 7, .ro, 0, .any⟩]⟩,
  ⟨0xe0, 1, 0x8, .none, [⟨0, 1, .wo, 0, .any⟩]⟩,
  ⟨0xe8, 1, 0x8, .none, [⟨8, 8, .ro, 0, .any⟩, ⟨1, 1, .ro, 0, .any⟩, ⟨0, 1, .ro, 0, .any⟩]⟩,
  ⟨0xf0, 1, 0x8, .none, [⟨0, 8, .rw, 0, .range 0 159⟩]⟩,
  ⟨0xf8, 1, 0x8, .none, [⟨0, 32, .ro, 0, .any⟩]⟩]

/-- The block registers of page HIF (spec 04 R92-R126). -/
def hifRegs : List RegDesc := [
  ⟨0x40, 1, 0x8, .none, [⟨0, 20, .rw, 0x3e8, .range 100 1000000⟩]⟩,
  ⟨0x48, 1, 0x8, .none, [⟨0, 32, .ro, 0, .any⟩]⟩,
  ⟨0x50, 1, 0x8, .none, [⟨0, 11, .ro, 0, .any⟩]⟩,
  ⟨0x58, 5, 0x8, .none, [⟨0, 48, .ro, 0, .any⟩]⟩,
  ⟨0x80, 1, 0x8, .none, [⟨0, 7, .rw, 0, .any⟩]⟩,
  ⟨0x88, 1, 0x8, .none, [⟨32, 16, .ro, 0, .any⟩, ⟨16, 16, .ro, 0, .any⟩, ⟨0, 16, .ro, 0, .any⟩]⟩,
  ⟨0x90, 1, 0x8, .none, [⟨0, 16, .w1c, 0, .any⟩]⟩,
  ⟨0x100, 16, 0x20, .none, [⟨0, 48, .rw, 0, .any⟩]⟩,
  ⟨0x108, 16, 0x20, .none, [⟨0, 17, .rw, 0, .any⟩]⟩,
  ⟨0x110, 16, 0x20, .none, [⟨0, 16, .rw, 0, .any⟩]⟩,
  ⟨0x118, 16, 0x20, .none, [⟨0, 16, .ro, 0, .any⟩]⟩,
  ⟨0x300, 16, 0x20, .none, [⟨0, 48, .rw, 0, .any⟩]⟩,
  ⟨0x308, 16, 0x20, .none, [⟨0, 17, .rw, 0, .any⟩]⟩,
  ⟨0x310, 16, 0x20, .none, [⟨0, 16, .ro, 0, .any⟩]⟩,
  ⟨0x318, 16, 0x20, .none, [⟨0, 16, .rw, 0, .any⟩]⟩]

/-- The block registers of page FAB (spec 05 R127-R153). -/
def fabRegs : List RegDesc := [
  ⟨0x40, 1, 0x8, .none, [⟨8, 32, .ro, 0, .any⟩, ⟨0, 5, .ro, 0, .any⟩]⟩,
  ⟨0x48, 1, 0x8, .none, [⟨0, 36, .ro, 0, .any⟩]⟩,
  ⟨0x50, 1, 0x8, .none, [⟨16, 32, .ro, 0, .any⟩, ⟨7, 1, .ro, 0, .any⟩, ⟨5, 2, .ro, 0, .any⟩, ⟨0, 5, .ro, 0, .any⟩]⟩,
  ⟨0x58, 1, 0x8, .none, [⟨0, 36, .ro, 0, .any⟩]⟩,
  ⟨0x100, 31, 0x40, .none, [⟨0, 48, .ro, 0, .any⟩]⟩,
  ⟨0x108, 31, 0x40, .none, [⟨0, 48, .ro, 0, .any⟩]⟩,
  ⟨0x110, 31, 0x40, .none, [⟨0, 48, .ro, 0, .any⟩]⟩,
  ⟨0x118, 31, 0x40, .none, [⟨0, 48, .ro, 0, .any⟩]⟩,
  ⟨0x120, 31, 0x40, .none, [⟨0, 48, .ro, 0, .any⟩]⟩,
  ⟨0x128, 31, 0x40, .none, [⟨16, 16, .ro, 0, .any⟩, ⟨0, 16, .ro, 0, .any⟩]⟩,
  ⟨0x130, 31, 0x40, .none, [⟨16, 16, .ro, 0, .any⟩, ⟨0, 16, .ro, 0, .any⟩]⟩,
  ⟨0x138, 31, 0x40, .none, [⟨32, 16, .ro, 0, .any⟩, ⟨8, 1, .ro, 0, .any⟩, ⟨7, 1, .ro, 0, .any⟩, ⟨0, 7, .ro, 0, .any⟩]⟩,
  ⟨0x8c0, 31, 0x8, .none, [⟨0, 2, .ro, 0, .any⟩]⟩]

/-- The block registers of page PMC (spec 19 R448-R454). -/
def pmcRegs : List RegDesc := [
  ⟨0x40, 1, 0x8, .none, [⟨0, 3, .rw, 0, .any⟩]⟩,
  ⟨0x48, 1, 0x8, .none, [⟨0, 1, .wo, 0, .any⟩]⟩,
  ⟨0x200, 64, 0x8, .pmc, [⟨0, 48, .rw, 0, .any⟩]⟩,
  ⟨0x400, 64, 0x8, .pmc, [⟨47, 1, .rw, 0, .any⟩, ⟨46, 1, .rw, 0, .any⟩, ⟨45, 1, .w1c, 0, .any⟩, ⟨44, 1, .w1c, 0, .any⟩, ⟨43, 1, .rw, 0, .any⟩, ⟨32, 4, .rw, 0, .any⟩, ⟨24, 8, .rw, 0, .any⟩, ⟨0, 16, .rw, 0, .any⟩]⟩]

/-- The block registers of page CHK (spec 15 R380-R387). -/
def chkRegs : List RegDesc := [
  ⟨0x40, 8, 0x8, .none, [⟨9, 1, .wo, 0, .any⟩, ⟨4, 3, .rw, 6, .range 1 6⟩, ⟨0, 2, .rw, 0, .any⟩]⟩,
  ⟨0x80, 8, 0x8, .none, [⟨0, 48, .wo, 0, .any⟩]⟩,
  ⟨0xc0, 8, 0x8, .none, [⟨0, 32, .ro, 0, .any⟩]⟩,
  ⟨0x100, 8, 0x8, .none, [⟨0, 32, .ro, 0xffffffff, .any⟩]⟩,
  ⟨0x140, 8, 0x8, .none, [⟨0, 48, .ro, 0, .any⟩]⟩,
  ⟨0x180, 1, 0x8, .none, [⟨0, 36, .rw, 0, .any⟩]⟩,
  ⟨0x188, 1, 0x8, .none, [⟨0, 36, .rw, 0, .range 0 34359738368⟩]⟩,
  ⟨0x190, 1, 0x8, .none, [⟨9, 1, .wo, 0, .any⟩, ⟨8, 1, .wo, 0, .any⟩, ⟨4, 3, .rw, 0, .any⟩]⟩,
  ⟨0x198, 1, 0x8, .none, [⟨24, 24, .ro, 0, .any⟩, ⟨20, 3, .ro, 0, .any⟩, ⟨0, 3, .ro, 0, .any⟩]⟩,
  ⟨0x1a0, 1, 0x8, .none, [⟨0, 36, .ro, 0, .any⟩]⟩]

/-- The block registers of page LANE (spec 07 R185-R203). -/
def laneRegs : List RegDesc := [
  ⟨0x40, 1, 0x8, .none, [⟨20, 4, .rws, 0, .any⟩, ⟨16, 4, .rws, 0, .any⟩, ⟨13, 1, .rws, 0, .any⟩, ⟨12, 1, .rws, 0, .any⟩, ⟨8, 2, .rws, 0, .any⟩, ⟨4, 1, .rws, 0, .any⟩, ⟨2, 1, .rws, 0, .any⟩, ⟨0, 2, .rws, 0, .range 0 2⟩]⟩,
  ⟨0x48, 4, 0x8, .none, [⟨16, 5, .rw, 4, .range 0 16⟩, ⟨8, 7, .rw, 0x36, .range 32 64⟩, ⟨0, 5, .rw, 6, .range 0 24⟩]⟩,
  ⟨0x68, 1, 0x8, .none, [⟨12, 4, .ro, 0, .any⟩, ⟨8, 4, .ro, 0, .any⟩, ⟨7, 1, .ro, 0, .any⟩, ⟨0, 3, .ro, 0, .any⟩]⟩,
  ⟨0x70, 4, 0x8, .none, [⟨40, 5, .ro, 0, .any⟩, ⟨0, 40, .ro, 0, .any⟩]⟩,
  ⟨0x90, 1, 0x8, .none, [⟨4, 4, .rw, 0, .range 0 4⟩, ⟨0, 4, .rw, 0, .range 0 4⟩]⟩,
  ⟨0x98, 1, 0x8, .none, [⟨0, 48, .ro, 0, .any⟩]⟩]

/-- The block registers of page MAC (spec 07 R204-R206). -/
def macRegs : List RegDesc := [
  ⟨0x40, 1, 0x8, .none, [⟨0, 48, .rw, 0, .any⟩]⟩,
  ⟨0x48, 1, 0x8, .none, [⟨0, 32, .rw, 0, .any⟩]⟩,
  ⟨0x50, 1, 0x8, .none, [⟨17, 1, .rw, 1, .any⟩, ⟨16, 1, .rw, 1, .any⟩, ⟨0, 14, .rw, 0x2400, .range 1518 9216⟩]⟩,
  ⟨0x58, 1, 0x8, .none, [⟨3, 1, .ro, 0, .any⟩, ⟨1, 2, .ro, 0, .any⟩, ⟨0, 1, .ro, 0, .any⟩]⟩,
  ⟨0x100, 1, 0x8, .none, [⟨0, 48, .ro, 0, .any⟩]⟩,
  ⟨0x108, 1, 0x8, .none, [⟨0, 48, .ro, 0, .any⟩]⟩,
  ⟨0x110, 1, 0x8, .none, [⟨0, 48, .ro, 0, .any⟩]⟩,
  ⟨0x118, 1, 0x8, .none, [⟨0, 48, .ro, 0, .any⟩]⟩,
  ⟨0x120, 1, 0x8, .none, [⟨0, 48, .ro, 0, .any⟩]⟩,
  ⟨0x128, 1, 0x8, .none, [⟨0, 48, .ro, 0, .any⟩]⟩,
  ⟨0x130, 1, 0x8, .none, [⟨0, 48, .ro, 0, .any⟩]⟩,
  ⟨0x138, 1, 0x8, .none, [⟨0, 48, .ro, 0, .any⟩]⟩,
  ⟨0x140, 1, 0x8, .none, [⟨0, 48, .ro, 0, .any⟩]⟩,
  ⟨0x148, 1, 0x8, .none, [⟨0, 48, .ro, 0, .any⟩]⟩,
  ⟨0x150, 1, 0x8, .none, [⟨0, 48, .ro, 0, .any⟩]⟩,
  ⟨0x158, 1, 0x8, .none, [⟨0, 48, .ro, 0, .any⟩]⟩,
  ⟨0x160, 1, 0x8, .none, [⟨0, 48, .ro, 0, .any⟩]⟩,
  ⟨0x168, 1, 0x8, .none, [⟨0, 48, .ro, 0, .any⟩]⟩,
  ⟨0x170, 1, 0x8, .none, [⟨0, 48, .ro, 0, .any⟩]⟩,
  ⟨0x178, 1, 0x8, .none, [⟨0, 48, .ro, 0, .any⟩]⟩,
  ⟨0x180, 1, 0x8, .none, [⟨0, 48, .ro, 0, .any⟩]⟩]

/-- The block registers of page PCIE (spec 07 R192-R193). -/
def pcieRegs : List RegDesc := [
  ⟨0x40, 1, 0x8, .none, [⟨32, 16, .ro, 0, .any⟩, ⟨8, 8, .ro, 0, .any⟩, ⟨3, 4, .ro, 0, .any⟩, ⟨0, 3, .ro, 0, .any⟩]⟩]

/-- The block registers of page SDS (spec 22 R482). -/
def sdsRegs : List RegDesc := [
  ⟨0x40, 1, 0x8, .none, [⟨40, 8, .ro, 0, .any⟩, ⟨32, 8, .ro, 0, .any⟩, ⟨16, 16, .ro, 0, .any⟩]⟩,
  ⟨0x48, 1, 0x8, .none, [⟨16, 8, .ro, 0, .any⟩, ⟨8, 8, .ro, 0, .any⟩, ⟨0, 8, .ro, 0, .any⟩]⟩,
  ⟨0x50, 1, 0x8, .none, [⟨2, 1, .ro, 0, .any⟩, ⟨1, 1, .ro, 0, .any⟩, ⟨0, 1, .ro, 0, .any⟩]⟩]

/-- The block registers of page PTP (spec 06 R164-R178). -/
def ptpRegs : List RegDesc := [
  ⟨0x40, 1, 0x8, .none, [⟨32, 8, .rw, 0x7f, .range 0 127⟩, ⟨24, 4, .rw, 5, .any⟩, ⟨16, 1, .rw, 0, .any⟩, ⟨0, 2, .rw, 0, .range 0 1⟩]⟩,
  ⟨0x48, 1, 0x8, .none, [⟨0, 2, .rw, 0, .range 0 2⟩]⟩,
  ⟨0x50, 1, 0x8, .none, [⟨0, 40, .rw, 0x280000000, .range 10732049531 10742786949⟩]⟩,
  ⟨0x58, 1, 0x8, .none, [⟨32, 16, .rw, 0xa00, .any⟩, ⟨16, 16, .rw, 0x100, .any⟩, ⟨0, 16, .rw, 0x64, .range 1 65535⟩]⟩,
  ⟨0x60, 1, 0x8, .none, [⟨0, 30, .rw, 0x3e8, .range 100 999999999⟩]⟩,
  ⟨0x68, 1, 0x8, .none, [⟨0, 20, .rw, 0xc8, .range 20 1000000⟩]⟩,
  ⟨0x70, 1, 0x8, .none, [⟨0, 8, .rw, 0x10, .range 1 255⟩]⟩,
  ⟨0x78, 1, 0x8, .none, [⟨0, 48, .rw, 0, .any⟩]⟩,
  ⟨0x80, 1, 0x8, .none, [⟨32, 1, .wo, 0, .any⟩, ⟨31, 1, .rw, 0, .any⟩, ⟨0, 30, .rw, 0, .range 0 999999999⟩]⟩,
  ⟨0x88, 1, 0x8, .none, [⟨32, 16, .ro, 0, .any⟩, ⟨24, 8, .ro, 0, .any⟩, ⟨16, 8, .ro, 0, .any⟩, ⟨6, 2, .ro, 0, .any⟩, ⟨4, 2, .ro, 0, .any⟩, ⟨0, 3, .ro, 0, .any⟩]⟩,
  ⟨0x90, 1, 0x8, .none, [⟨0, 48, .ro, 0, .any⟩]⟩,
  ⟨0x98, 1, 0x8, .none, [⟨32, 16, .ro, 0, .any⟩, ⟨0, 30, .ro, 0, .any⟩]⟩,
  ⟨0xa0, 1, 0x8, .none, [⟨0, 32, .ro, 0, .any⟩]⟩,
  ⟨0xa8, 1, 0x8, .none, [⟨0, 32, .ro, 0, .any⟩]⟩,
  ⟨0xb0, 1, 0x8, .none, [⟨0, 48, .ro, 0, .any⟩]⟩,
  ⟨0xb8, 1, 0x8, .none, [⟨16, 16, .ro, 0, .any⟩, ⟨0, 16, .ro, 0, .any⟩]⟩]

/-- The block registers of page TSU (spec 06 R178). -/
def tsuRegs : List RegDesc := [
  ⟨0x40, 4, 0x8, .none, [⟨0, 32, .rw, 0, .any⟩]⟩]

/-- The block registers of page CLK (spec 06 R183-R184). -/
def clkRegs : List RegDesc := [
  ⟨0x40, 1, 0x8, .none, [⟨8, 6, .ro, 0, .any⟩, ⟨4, 1, .ro, 0, .any⟩, ⟨3, 1, .ro, 0, .any⟩, ⟨2, 1, .ro, 0, .any⟩, ⟨1, 1, .ro, 0, .any⟩, ⟨0, 1, .ro, 0, .any⟩]⟩,
  ⟨0x48, 1, 0x8, .none, [⟨1, 1, .rw, 0, .any⟩, ⟨0, 1, .rw, 0, .any⟩]⟩]

/-- The block registers of page REF (spec 06 R179-R182). -/
def refRegs : List RegDesc := [
  ⟨0x40, 1, 0x8, .none, [⟨4, 4, .rws, 0, .range 0 12⟩, ⟨0, 1, .rws, 0, .any⟩]⟩,
  ⟨0x48, 1, 0x8, .none, [⟨32, 16, .ro, 0, .any⟩, ⟨16, 16, .ro, 0, .any⟩, ⟨4, 4, .ro, 0xf, .any⟩, ⟨0, 2, .ro, 0, .any⟩]⟩,
  ⟨0x50, 1, 0x8, .none, [⟨0, 32, .ro, 0, .any⟩]⟩]

/-- The block registers of page CHIN (spec 08 R212-R232). -/
def chinRegs : List RegDesc := [
  ⟨0x40, 1, 0x8, .none, [⟨15, 1, .rws, 0, .any⟩, ⟨13, 2, .rws, 0, .range 0 2⟩, ⟨11, 2, .rws, 0, .range 0 2⟩, ⟨10, 1, .rws, 0, .any⟩, ⟨8, 2, .rws, 0, .range 0 2⟩, ⟨0, 4, .rws, 0xc, .range 2 12⟩]⟩,
  ⟨0x48, 1, 0x8, .none, [⟨2, 1, .wo, 0, .any⟩, ⟨0, 1, .rws, 0, .any⟩]⟩,
  ⟨0x50, 1, 0x8, .none, [⟨16, 32, .ro, 0, .any⟩, ⟨8, 8, .ro, 0, .any⟩, ⟨0, 3, .ro, 0, .any⟩]⟩]

/-- The block registers of page FLOW (spec 08 R207-R233). -/
def flowRegs : List RegDesc := [
  ⟨0x40, 1, 0x8, .none, [⟨16, 8, .rws, 0, .zeroOr 96 127⟩, ⟨8, 4, .rws, 0, .any⟩, ⟨4, 3, .rws, 0, .any⟩, ⟨0, 2, .rws, 0, .any⟩]⟩,
  ⟨0x48, 1, 0x8, .none, [⟨16, 32, .rws, 0, .any⟩, ⟨0, 16, .rws, 0, .any⟩]⟩,
  ⟨0x50, 1, 0x8, .none, [⟨0, 32, .rws, 0, .any⟩]⟩,
  ⟨0x58, 1, 0x8, .none, [⟨16, 1, .rws, 0, .any⟩, ⟨15, 1, .rws, 0, .any⟩, ⟨12, 2, .rws, 0, .any⟩, ⟨0, 12, .rws, 0, .any⟩]⟩,
  ⟨0x60, 1, 0x8, .none, [⟨16, 32, .rws, 0, .any⟩, ⟨0, 16, .rws, 0, .any⟩]⟩,
  ⟨0x68, 1, 0x8, .none, [⟨0, 32, .rws, 0, .any⟩]⟩,
  ⟨0x70, 1, 0x8, .none, [⟨16, 1, .rws, 0, .any⟩, ⟨15, 1, .rws, 0, .any⟩, ⟨12, 2, .rws, 2, .any⟩, ⟨0, 12, .rws, 0, .any⟩]⟩,
  ⟨0x78, 1, 0x8, .none, [⟨32, 2, .rws, 0, .range 0 2⟩, ⟨16, 16, .rws, 0, .any⟩, ⟨0, 16, .rws, 0, .any⟩]⟩,
  ⟨0x80, 1, 0x8, .none, [⟨24, 24, .ro, 0, .any⟩, ⟨4, 2, .ro, 0, .any⟩, ⟨0, 2, .ro, 0, .any⟩]⟩,
  ⟨0x100, 1, 0x8, .none, [⟨0, 48, .ro, 0, .any⟩]⟩,
  ⟨0x108, 1, 0x8, .none, [⟨0, 48, .ro, 0, .any⟩]⟩,
  ⟨0x110, 1, 0x8, .none, [⟨0, 48, .ro, 0, .any⟩]⟩,
  ⟨0x118, 1, 0x8, .none, [⟨0, 48, .ro, 0, .any⟩]⟩,
  ⟨0x120, 1, 0x8, .none, [⟨0, 48, .ro, 0, .any⟩]⟩,
  ⟨0x128, 1, 0x8, .none, [⟨0, 48, .ro, 0, .any⟩]⟩,
  ⟨0x130, 1, 0x8, .none, [⟨0, 48, .ro, 0, .any⟩]⟩,
  ⟨0x138, 1, 0x8, .none, [⟨0, 48, .ro, 0, .any⟩]⟩,
  ⟨0x140, 1, 0x8, .none, [⟨0, 48, .ro, 0, .any⟩]⟩,
  ⟨0x148, 1, 0x8, .none, [⟨0, 48, .ro, 0, .any⟩]⟩,
  ⟨0x150, 1, 0x8, .none, [⟨0, 48, .ro, 0, .any⟩]⟩,
  ⟨0x158, 1, 0x8, .none, [⟨0, 48, .ro, 0, .any⟩]⟩,
  ⟨0x160, 1, 0x8, .none, [⟨0, 48, .ro, 0, .any⟩]⟩]

/-- The block registers of page PAF (spec 09 R234-R249). -/
def pafRegs : List RegDesc := [
  ⟨0x40, 1, 0x8, .none, [⟨11, 1, .rws, 0, .any⟩, ⟨10, 1, .rws, 0, .any⟩, ⟨8, 2, .rws, 0, .range 0 2⟩, ⟨6, 2, .rws, 0, .range 0 2⟩, ⟨4, 1, .rws, 0, .any⟩, ⟨1, 1, .rws, 0, .any⟩, ⟨0, 1, .rws, 0, .any⟩]⟩,
  ⟨0x48, 1, 0x8, .none, [⟨12, 4, .rws, 0, .any⟩, ⟨10, 1, .rws, 0, .any⟩, ⟨8, 2, .rws, 0, .range 0 2⟩, ⟨6, 2, .rws, 0, .range 0 2⟩, ⟨1, 1, .rws, 0, .any⟩, ⟨0, 1, .rws, 0, .any⟩]⟩,
  ⟨0x50, 2, 0x18, .none, [⟨0, 36, .rw, 0, .any⟩]⟩,
  ⟨0x58, 2, 0x18, .none, [⟨0, 1, .wo, 0, .any⟩]⟩,
  ⟨0x60, 2, 0x18, .none, [⟨32, 16, .ro, 0, .any⟩, ⟨24, 4, .ro, 0, .any⟩, ⟨4, 4, .ro, 0, .any⟩, ⟨1, 1, .ro, 0, .any⟩, ⟨0, 1, .ro, 0, .any⟩]⟩,
  ⟨0x80, 1, 0x8, .none, [⟨32, 16, .ro, 0, .any⟩, ⟨16, 16, .ro, 0, .any⟩, ⟨0, 16, .ro, 0xffff, .any⟩]⟩]

/-- The block registers of page BAY (spec 10 R250-R288, 14 R349-R353). -/
def bayRegs : List RegDesc := [
  ⟨0x40, 1, 0x8, .none, [⟨45, 3, .ro, 0, .any⟩, ⟨42, 3, .ro, 0, .any⟩, ⟨39, 3, .ro, 0, .any⟩, ⟨38, 1, .ro, 0, .any⟩, ⟨35, 3, .ro, 0, .any⟩, ⟨31, 4, .ro, 0, .any⟩, ⟨23, 8, .ro, 0, .any⟩]⟩,
  ⟨0x48, 1, 0x8, .none, [⟨0, 32, .ro, 0, .any⟩]⟩,
  ⟨0x50, 1, 0x8, .none, [⟨24, 24, .ro, 0, .any⟩, ⟨0, 22, .ro, 0, .any⟩]⟩,
  ⟨0x58, 1, 0x8, .none, [⟨0, 32, .ro, 0, .any⟩]⟩,
  ⟨0x60, 1, 0x8, .none, [⟨0, 48, .ro, 0, .any⟩]⟩,
  ⟨0x68, 1, 0x8, .none, [⟨0, 48, .ro, 0, .any⟩]⟩,
  ⟨0x70, 1, 0x8, .none, [⟨32, 16, .ro, 0, .any⟩, ⟨16, 16, .ro, 0, .any⟩, ⟨8, 2, .ro, 0, .any⟩]⟩,
  ⟨0x78, 1, 0x8, .none, [⟨44, 4, .ro, 0, .any⟩, ⟨42, 2, .ro, 0, .any⟩, ⟨34, 8, .ro, 0, .any⟩, ⟨26, 8, .ro, 0, .any⟩, ⟨23, 3, .ro, 0, .any⟩, ⟨19, 4, .ro, 0, .any⟩, ⟨18, 1, .ro, 0, .any⟩]⟩]

/-- The block registers of page ARCC (spec 10 R286). -/
def arccRegs : List RegDesc := [
  ⟨0x40, 1, 0x8, .none, [⟨16, 16, .ro, 0, .any⟩, ⟨0, 16, .ro, 0xffff, .any⟩]⟩]

/-- The block registers of page EAU (spec 22 R481). -/
def eauRegs : List RegDesc := [
  ⟨0x40, 1, 0x8, .none, [⟨47, 1, .ro, 0, .any⟩, ⟨46, 1, .ro, 0, .any⟩, ⟨45, 1, .ro, 1, .any⟩, ⟨41, 1, .ro, 0, .any⟩, ⟨38, 3, .ro, 0, .any⟩, ⟨34, 4, .ro, 0, .any⟩, ⟨26, 8, .ro, 0, .any⟩]⟩,
  ⟨0x48, 1, 0x8, .none, [⟨0, 48, .ro, 0, .any⟩]⟩,
  ⟨0x50, 1, 0x8, .none, [⟨32, 16, .ro, 0, .any⟩, ⟨16, 16, .ro, 0, .any⟩, ⟨0, 16, .ro, 0, .any⟩]⟩,
  ⟨0x58, 1, 0x8, .none, [⟨20, 28, .ro, 0, .any⟩, ⟨0, 15, .ro, 0, .any⟩]⟩]

/-- The block registers of page MZE (spec 13 R328-R339). -/
def mzeRegs : List RegDesc := [
  ⟨0x40, 1, 0x8, .none, [⟨45, 3, .ro, 0, .any⟩, ⟨35, 3, .ro, 0, .any⟩, ⟨31, 4, .ro, 0, .any⟩, ⟨23, 8, .ro, 0, .any⟩]⟩,
  ⟨0x48, 1, 0x8, .none, [⟨0, 32, .ro, 0, .any⟩]⟩,
  ⟨0x50, 1, 0x8, .none, [⟨22, 26, .ro, 0, .any⟩, ⟨0, 22, .ro, 0, .any⟩]⟩,
  ⟨0x58, 1, 0x8, .none, [⟨0, 48, .ro, 0, .any⟩]⟩,
  ⟨0x60, 1, 0x8, .none, [⟨32, 16, .ro, 0, .any⟩, ⟨8, 2, .ro, 0, .any⟩]⟩,
  ⟨0x68, 1, 0x8, .none, [⟨44, 4, .ro, 0, .any⟩, ⟨35, 3, .ro, 0, .any⟩, ⟨31, 4, .ro, 0, .any⟩, ⟨23, 8, .ro, 0, .any⟩]⟩]

/-- The block registers of page DSP (spec 12 R316-R327, 01 R24, 11 R306-R308). -/
def dspRegs : List RegDesc := [
  ⟨0x40, 1, 0x8, .none, [⟨3, 1, .wo, 0, .any⟩, ⟨2, 1, .rw, 0, .any⟩, ⟨0, 2, .rw, 0, .range 0 2⟩]⟩,
  ⟨0x48, 1, 0x8, .none, [⟨8, 4, .ro, 0, .any⟩, ⟨6, 1, .ro, 0, .any⟩, ⟨4, 2, .ro, 0, .any⟩, ⟨3, 1, .ro, 0, .any⟩, ⟨2, 1, .ro, 0, .any⟩, ⟨0, 2, .ro, 0, .any⟩]⟩,
  ⟨0x50, 1, 0x8, .none, [⟨30, 18, .ro, 0, .any⟩, ⟨0, 30, .ro, 0, .any⟩]⟩,
  ⟨0x60, 1, 0x8, .none, [⟨16, 13, .ro, 0, .any⟩, ⟨0, 13, .ro, 0, .any⟩]⟩,
  ⟨0x68, 1, 0x8, .none, [⟨16, 12, .ro, 0, .any⟩, ⟨0, 12, .ro, 0, .any⟩]⟩,
  ⟨0x70, 1, 0x8, .none, [⟨0, 48, .ro, 0, .any⟩]⟩,
  ⟨0x78, 1, 0x8, .none, [⟨0, 48, .ro, 0, .any⟩]⟩,
  ⟨0x80, 1, 0x8, .none, [⟨0, 48, .ro, 0, .any⟩]⟩,
  ⟨0x88, 1, 0x8, .none, [⟨16, 32, .ro, 0, .any⟩, ⟨0, 16, .ro, 0, .any⟩]⟩,
  ⟨0x100, 8, 0x8, .none, [⟨32, 1, .rw, 0, .any⟩, ⟨0, 25, .rw, 0, .any⟩]⟩,
  ⟨0x140, 8, 0x8, .none, [⟨40, 8, .ro, 0, .any⟩, ⟨0, 25, .ro, 0, .any⟩]⟩,
  ⟨0x180, 16, 0x8, .none, [⟨32, 16, .ro, 0, .any⟩, ⟨0, 13, .ro, 0, .any⟩]⟩]

/-- The block registers of page STC (spec 11 R289-R315, 10 R258-R283, 13 R331-R343, 19 R455-R456). -/
def stcRegs : List RegDesc := [
  ⟨0x40, 1, 0x8, .none, [⟨0, 3, .rws, 0, .any⟩]⟩,
  ⟨0x48, 1, 0x8, .none, [⟨16, 12, .rws, 0x200, .range 64 4095⟩, ⟨0, 6, .rws, 0x33, .any⟩]⟩,
  ⟨0x50, 1, 0x8, .none, [⟨32, 16, .ro, 0, .any⟩, ⟨16, 16, .ro, 0, .any⟩, ⟨4, 4, .ro, 0, .any⟩, ⟨1, 1, .ro, 0, .any⟩, ⟨0, 1, .ro, 0, .any⟩]⟩,
  ⟨0x58, 1, 0x8, .none, [⟨32, 16, .ro, 0, .any⟩, ⟨16, 16, .ro, 0, .any⟩, ⟨0, 16, .ro, 0, .any⟩]⟩,
  ⟨0x100, 16, 0x8, .none, [⟨47, 1, .rws, 0, .any⟩, ⟨46, 1, .rws, 0, .any⟩, ⟨43, 3, .rws, 0, .any⟩, ⟨32, 9, .rws, 4, .any⟩, ⟨21, 11, .rws, 0, .any⟩, ⟨0, 21, .rws, 0, .any⟩]⟩,
  ⟨0x180, 1, 0x8, .none, [⟨47, 1, .rws, 0, .any⟩, ⟨32, 9, .rws, 4, .any⟩, ⟨0, 21, .rws, 0, .any⟩]⟩,
  ⟨0x1c0, 1, 0x8, .none, [⟨32, 8, .rws, 0x3c, .range 2 255⟩, ⟨8, 2, .rws, 2, .range 1 2⟩, ⟨4, 2, .rws, 1, .range 0 2⟩, ⟨0, 1, .rws, 0, .any⟩]⟩,
  ⟨0x1c8, 1, 0x8, .none, [⟨32, 8, .rws, 0x3c, .range 2 255⟩, ⟨8, 2, .rws, 1, .range 1 2⟩]⟩,
  ⟨0x200, 16, 0x8, .none, [⟨40, 8, .ro, 0, .any⟩, ⟨32, 8, .ro, 0, .any⟩, ⟨0, 32, .ro, 0, .any⟩]⟩,
  ⟨0x280, 1, 0x8, .none, [⟨40, 8, .ro, 0, .any⟩, ⟨32, 8, .ro, 0, .any⟩, ⟨0, 32, .ro, 0, .any⟩]⟩,
  ⟨0x300, 16, 0x8, .none, [⟨47, 1, .rws, 0, .any⟩, ⟨35, 9, .rws, 2, .any⟩, ⟨29, 6, .rws, 0, .any⟩, ⟨23, 6, .rws, 0, .any⟩, ⟨12, 9, .rws, 0, .any⟩]⟩,
  ⟨0x380, 16, 0x8, .none, [⟨21, 27, .ro, 0, .any⟩, ⟨12, 9, .ro, 0, .any⟩, ⟨2, 10, .ro, 0, .any⟩]⟩,
  ⟨0x400, 1, 0x8, .none, [⟨0, 36, .rw, 0, .any⟩]⟩,
  ⟨0x408, 1, 0x8, .none, [⟨8, 4, .wo, 0, .any⟩, ⟨0, 1, .wo, 0, .any⟩]⟩,
  ⟨0x410, 16, 0x8, .none, [⟨32, 16, .ro, 0, .any⟩, ⟨24, 4, .ro, 0, .any⟩, ⟨4, 4, .ro, 0, .any⟩, ⟨1, 1, .ro, 0, .any⟩, ⟨0, 1, .ro, 0, .any⟩]⟩,
  ⟨0x490, 16, 0x8, .none, [⟨24, 24, .ro, 0, .any⟩, ⟨8, 16, .ro, 0, .any⟩]⟩,
  ⟨0x7f8, 1, 0x8, .none, [⟨4, 1, .rws, 0, .any⟩, ⟨0, 4, .rws, 0, .any⟩]⟩,
  ⟨0x800, 1, 0x8, .none, [⟨16, 32, .ro, 0, .any⟩, ⟨0, 16, .ro, 0, .any⟩]⟩,
  ⟨0x808, 1, 0x8, .none, [⟨30, 18, .ro, 0, .any⟩, ⟨0, 30, .ro, 0, .any⟩]⟩,
  ⟨0x810, 1, 0x8, .none, [⟨0, 48, .ro, 0, .any⟩]⟩,
  ⟨0x818, 1, 0x8, .none, [⟨0, 16, .ro, 0, .any⟩]⟩,
  ⟨0x820, 3, 0x8, .none, [⟨0, 16, .ro, 0, .any⟩, ⟨16, 16, .ro, 0, .any⟩, ⟨32, 16, .ro, 0, .any⟩]⟩,
  ⟨0x838, 1, 0x8, .none, [⟨32, 16, .ro, 0, .any⟩, ⟨24, 8, .ro, 0, .any⟩, ⟨16, 8, .ro, 0, .any⟩, ⟨8, 8, .ro, 0, .any⟩, ⟨7, 1, .ro, 0, .any⟩]⟩,
  ⟨0x840, 1, 0x8, .none, [⟨40, 8, .ro, 0, .any⟩, ⟨32, 8, .ro, 0, .any⟩, ⟨24, 8, .ro, 0, .any⟩, ⟨16, 8, .ro, 0, .any⟩, ⟨8, 8, .ro, 0, .any⟩, ⟨4, 4, .ro, 0, .any⟩, ⟨0, 4, .ro, 0, .any⟩]⟩,
  ⟨0x848, 135, 0x8, .none, [⟨24, 24, .ro, 0, .any⟩, ⟨0, 24, .ro, 0, .any⟩]⟩]

/-- The block registers of page ASM (spec 15 R365-R366, 16 R393). -/
def asmRegs : List RegDesc := [
  ⟨0x40, 1, 0x8, .none, [⟨0, 9, .rw, 0, .range 0 263⟩]⟩,
  ⟨0x48, 1, 0x8, .od, [⟨46, 2, .rw, 0, .range 0 2⟩, ⟨32, 14, .rw, 0x578, .any⟩, ⟨0, 32, .rw, 0, .any⟩]⟩,
  ⟨0x50, 1, 0x8, .od, [⟨35, 13, .rw, 0x100, .any⟩, ⟨22, 13, .rw, 0x101, .any⟩, ⟨9, 13, .rw, 0x102, .any⟩, ⟨2, 7, .rw, 0x60, .any⟩]⟩,
  ⟨0x58, 1, 0x8, .od, [⟨35, 13, .rw, 0, .any⟩, ⟨22, 13, .rw, 0, .any⟩, ⟨6, 16, .rw, 1, .any⟩]⟩,
  ⟨0x60, 1, 0x8, .od, [⟨32, 16, .rw, 0, .any⟩, ⟨16, 13, .rw, 0, .any⟩]⟩,
  ⟨0x80, 1, 0x8, .none, [⟨24, 24, .ro, 0, .any⟩, ⟨0, 24, .ro, 0, .any⟩]⟩]

/-- The block registers of page SEAL (spec 15 R374-R379). -/
def sealRegs : List RegDesc := [
  ⟨0x40, 1, 0x8, .none, [⟨16, 8, .ro, 1, .any⟩, ⟨0, 16, .rw, 0x5345, .any⟩]⟩,
  ⟨0x48, 1, 0x8, .none, [⟨16, 10, .rw, 0, .any⟩, ⟨0, 9, .rw, 0, .any⟩]⟩,
  ⟨0x50, 8, 0x8, .seal, [⟨0, 32, .ro, 0, .any⟩]⟩]

/-- The block registers of page GATE (spec 16 R401-R412). -/
def gateRegs : List RegDesc := [
  ⟨0x40, 1, 0x8, .none, [⟨0, 48, .rws, 0, .any⟩]⟩,
  ⟨0x48, 1, 0x8, .none, [⟨0, 30, .rws, 0, .any⟩]⟩,
  ⟨0x50, 1, 0x8, .none, [⟨0, 30, .rws, 0xf4240, .any⟩]⟩,
  ⟨0x58, 1, 0x8, .none, [⟨47, 1, .rws, 0, .any⟩, ⟨0, 10, .rws, 0, .any⟩]⟩,
  ⟨0x60, 1, 0x8, .none, [⟨15, 1, .rw, 0, .any⟩, ⟨0, 9, .rw, 0, .any⟩]⟩,
  ⟨0x68, 1, 0x8, .gate, [⟨32, 8, .rw, 0, .any⟩, ⟨0, 32, .rw, 0, .any⟩]⟩,
  ⟨0x70, 1, 0x8, .none, [⟨0, 1, .wo, 0, .any⟩]⟩,
  ⟨0x78, 1, 0x8, .none, [⟨47, 1, .ro, 0, .any⟩, ⟨46, 1, .ro, 0, .any⟩, ⟨45, 1, .ro, 0, .any⟩, ⟨35, 10, .ro, 0, .any⟩, ⟨26, 9, .ro, 0, .any⟩, ⟨18, 8, .ro, 0xff, .any⟩]⟩,
  ⟨0x80, 1, 0x8, .none, [⟨30, 18, .ro, 0, .any⟩, ⟨0, 30, .ro, 0, .any⟩]⟩,
  ⟨0x88, 1, 0x8, .none, [⟨0, 30, .ro, 0, .any⟩]⟩,
  ⟨0x100, 1, 0x8, .none, [⟨0, 48, .ro, 0, .any⟩]⟩,
  ⟨0x108, 1, 0x8, .none, [⟨0, 48, .ro, 0, .any⟩]⟩,
  ⟨0x110, 1, 0x8, .none, [⟨0, 48, .ro, 0, .any⟩]⟩,
  ⟨0x118, 1, 0x8, .none, [⟨0, 48, .ro, 0, .any⟩]⟩,
  ⟨0x120, 1, 0x8, .none, [⟨0, 48, .ro, 0, .any⟩]⟩,
  ⟨0x128, 1, 0x8, .none, [⟨0, 48, .ro, 0, .any⟩]⟩,
  ⟨0x130, 1, 0x8, .none, [⟨0, 48, .ro, 0, .any⟩]⟩,
  ⟨0x138, 1, 0x8, .none, [⟨0, 48, .ro, 0, .any⟩]⟩,
  ⟨0x140, 1, 0x8, .none, [⟨0, 48, .ro, 0, .any⟩]⟩,
  ⟨0x148, 1, 0x8, .none, [⟨0, 48, .ro, 0, .any⟩]⟩,
  ⟨0x150, 1, 0x8, .none, [⟨0, 48, .ro, 0, .any⟩]⟩,
  ⟨0x158, 1, 0x8, .none, [⟨0, 48, .ro, 0, .any⟩]⟩,
  ⟨0x160, 1, 0x8, .none, [⟨0, 48, .ro, 0, .any⟩]⟩,
  ⟨0x168, 1, 0x8, .none, [⟨0, 48, .ro, 0, .any⟩]⟩]

/-- The block registers of page SHP (spec 16 R388-R400). -/
def shpRegs : List RegDesc := [
  ⟨0x40, 1, 0x8, .none, [⟨0, 1, .rw, 0, .any⟩]⟩,
  ⟨0x48, 8, 0x8, .none, [⟨19, 29, .rw, 0x17d78400, .range 0 400000000⟩, ⟨0, 19, .rw, 0x40000, .range 1 262144⟩]⟩,
  ⟨0x100, 32, 0x40, .none, [⟨47, 1, .rw, 0, .any⟩, ⟨46, 1, .rw, 0, .any⟩, ⟨45, 1, .rw, 0, .any⟩, ⟨44, 1, .rw, 0, .any⟩, ⟨42, 2, .rw, 0, .range 0 2⟩, ⟨39, 3, .rw, 0, .any⟩, ⟨38, 1, .rw, 0, .any⟩, ⟨26, 12, .rw, 0, .any⟩, ⟨20, 6, .rw, 0, .any⟩, ⟨0, 16, .rw, 0, .any⟩]⟩,
  ⟨0x108, 32, 0x40, .none, [⟨19, 29, .rw, 0, .range 0 400000000⟩, ⟨0, 19, .rw, 0x18, .range 1 262144⟩]⟩,
  ⟨0x110, 32, 0x40, .none, [⟨16, 32, .rw, 0, .any⟩, ⟨0, 16, .rw, 0, .any⟩]⟩,
  ⟨0x118, 32, 0x40, .none, [⟨16, 32, .rw, 0, .any⟩, ⟨0, 16, .rw, 0, .any⟩]⟩,
  ⟨0x120, 32, 0x40, .none, [⟨0, 48, .rw, 0, .any⟩]⟩,
  ⟨0x128, 32, 0x40, .none, [⟨0, 48, .rw, 0, .any⟩]⟩,
  ⟨0x130, 32, 0x40, .none, [⟨19, 29, .ro, 0, .any⟩, ⟨14, 2, .ro, 0, .any⟩, ⟨0, 14, .ro, 0, .any⟩]⟩]

/-- The block registers of page QUE (spec 16 R388-R412). -/
def queRegs : List RegDesc := [
  ⟨0x40, 1, 0x8, .none, [⟨0, 10, .rw, 0, .any⟩]⟩,
  ⟨0x48, 1, 0x8, .que, [⟨47, 1, .rw, 0, .any⟩, ⟨40, 7, .rw, 0, .any⟩, ⟨0, 16, .rw, 0, .any⟩]⟩,
  ⟨0x50, 1, 0x8, .que, [⟨19, 29, .rw, 0, .range 0 400000000⟩, ⟨0, 19, .rw, 0x18, .range 1 262144⟩]⟩,
  ⟨0x58, 1, 0x8, .que, [⟨19, 29, .ro, 0, .any⟩, ⟨16, 3, .ro, 0, .any⟩, ⟨15, 1, .w1c, 0, .any⟩, ⟨0, 14, .ro, 0, .any⟩]⟩,
  ⟨0x60, 1, 0x8, .que, [⟨0, 48, .ro, 0, .any⟩]⟩,
  ⟨0x68, 1, 0x8, .que, [⟨24, 24, .ro, 0, .any⟩, ⟨0, 24, .ro, 0, .any⟩]⟩]

/-- The block registers of page HBM (spec 17 R413-R426, 14 R359-R360). -/
def hbmRegs : List RegDesc := [
  ⟨0x40, 1, 0x8, .none, [⟨20, 1, .rw, 1, .any⟩, ⟨0, 20, .rw, 0x3e8, .range 1 1000000⟩]⟩,
  ⟨0x48, 1, 0x8, .none, [⟨32, 16, .ro, 0, .any⟩, ⟨4, 5, .ro, 0, .any⟩, ⟨1, 1, .ro, 0, .any⟩, ⟨0, 1, .ro, 0, .any⟩]⟩,
  ⟨0x50, 1, 0x8, .none, [⟨32, 16, .ro, 0, .any⟩, ⟨16, 16, .ro, 0, .any⟩, ⟨0, 16, .ro, 0, .any⟩]⟩,
  ⟨0x58, 1, 0x8, .none, [⟨24, 24, .ro, 0, .any⟩, ⟨0, 24, .ro, 0, .any⟩]⟩,
  ⟨0x60, 1, 0x8, .none, [⟨0, 5, .rw, 0, .any⟩]⟩,
  ⟨0x68, 1, 0x8, .hbm, [⟨41, 7, .ro, 0, .any⟩, ⟨39, 2, .ro, 0, .any⟩, ⟨36, 3, .ro, 0, .any⟩, ⟨31, 5, .ro, 0, .any⟩]⟩,
  ⟨0x70, 1, 0x8, .none, [⟨24, 24, .ro, 0, .any⟩, ⟨16, 8, .ro, 0, .any⟩, ⟨2, 4, .ro, 0, .any⟩, ⟨0, 2, .ro, 0, .any⟩]⟩,
  ⟨0x100, 1, 0x8, .none, [⟨32, 16, .ro, 0, .any⟩, ⟨16, 16, .ro, 0, .any⟩, ⟨0, 16, .ro, 0, .any⟩]⟩,
  ⟨0x108, 1, 0x8, .none, [⟨24, 24, .ro, 0, .any⟩, ⟨0, 24, .ro, 0, .any⟩]⟩,
  ⟨0x110, 1, 0x8, .none, [⟨46, 2, .ro, 0, .any⟩, ⟨40, 5, .ro, 0, .any⟩, ⟨0, 35, .ro, 0, .any⟩]⟩]

/-- The block registers of page GAL (spec 14 R355-R357, 17 R427). -/
def galRegs : List RegDesc := [
  ⟨0x40, 1, 0x8, .none, [⟨0, 48, .ro, 0, .any⟩]⟩,
  ⟨0x100, 1, 0x8, .none, [⟨32, 16, .ro, 0, .any⟩, ⟨16, 1, .rw, 1, .any⟩, ⟨0, 16, .rw, 0x64, .range 20 10000⟩]⟩,
  ⟨0x108, 1, 0x8, .none, [⟨32, 16, .ro, 0, .any⟩, ⟨16, 16, .ro, 0, .any⟩, ⟨0, 16, .ro, 0, .any⟩]⟩,
  ⟨0x110, 1, 0x8, .none, [⟨46, 2, .ro, 0, .any⟩, ⟨45, 1, .ro, 0, .any⟩, ⟨38, 7, .ro, 0, .any⟩, ⟨0, 26, .ro, 0, .any⟩]⟩]

/-- The block registers of page PDM (spec 18 R432-R433). -/
def pdmRegs : List RegDesc := [
  ⟨0x40, 1, 0x8, .none, [⟨16, 4, .rws, 0, .any⟩, ⟨0, 1, .rws, 0, .any⟩]⟩,
  ⟨0x48, 16, 0x8, .none, [⟨6, 1, .rws, 1, .any⟩, ⟨0, 6, .rws, 0, .any⟩]⟩,
  ⟨0xc8, 1, 0x8, .none, [⟨0, 16, .ro, 0, .any⟩]⟩]

/-- The block registers of page TDM (spec 18 R434-R438). -/
def tdmRegs : List RegDesc := [
  ⟨0x40, 1, 0x8, .none, [⟨16, 13, .rw, 0x30, .range 1 8000⟩, ⟨8, 2, .rw, 0, .range 0 2⟩, ⟨4, 3, .rw, 4, .range 0 4⟩, ⟨0, 1, .rw, 1, .any⟩]⟩,
  ⟨0x48, 1, 0x8, .none, [⟨16, 16, .rw, 0, .any⟩, ⟨0, 16, .rw, 0, .any⟩]⟩,
  ⟨0x50, 3, 0x8, .none, [⟨0, 48, .rw, 0, .any⟩]⟩,
  ⟨0x68, 1, 0x8, .none, [⟨32, 16, .ro, 0, .any⟩, ⟨16, 16, .ro, 0, .any⟩, ⟨9, 7, .ro, 0, .any⟩, ⟨0, 3, .ro, 0, .any⟩]⟩,
  ⟨0x70, 1, 0x8, .none, [⟨0, 48, .ro, 0, .any⟩]⟩]

/-- The block registers of page AUDC (spec 18 R429-R447). -/
def audcRegs : List RegDesc := [
  ⟨0x40, 1, 0x8, .none, [⟨0, 1, .rws, 0, .any⟩]⟩,
  ⟨0x48, 1, 0x8, .none, [⟨4, 2, .rws, 1, .any⟩, ⟨0, 1, .rws, 0, .any⟩]⟩,
  ⟨0x50, 1, 0x8, .none, [⟨32, 16, .ro, 0, .any⟩, ⟨16, 16, .ro, 0, .any⟩, ⟨4, 4, .ro, 0xf, .any⟩, ⟨0, 2, .ro, 0, .any⟩]⟩,
  ⟨0x58, 1, 0x8, .none, [⟨0, 8, .rw, 0, .any⟩]⟩,
  ⟨0x60, 1, 0x8, .ch, [⟨12, 2, .rws, 0, .any⟩, ⟨6, 6, .rws, 0, .any⟩, ⟨0, 6, .rws, 0, .any⟩]⟩,
  ⟨0x68, 1, 0x8, .none, [⟨0, 48, .ro, 0, .any⟩]⟩,
  ⟨0x70, 1, 0x8, .none, [⟨0, 6, .rw, 0, .any⟩]⟩,
  ⟨0x78, 1, 0x8, .rx, [⟨8, 1, .rws, 1, .any⟩, ⟨0, 7, .rws, 2, .range 1 64⟩]⟩,
  ⟨0x80, 1, 0x8, .none, [⟨0, 5, .rw, 0, .any⟩]⟩,
  ⟨0x88, 1, 0x8, .tx, [⟨47, 1, .rws, 0, .any⟩, ⟨33, 13, .rws, 0, .range 0 8187⟩, ⟨24, 8, .rws, 0, .any⟩, ⟨16, 7, .rws, 0, .any⟩, ⟨0, 8, .rws, 6, .any⟩]⟩,
  ⟨0x90, 1, 0x8, .tx, [⟨0, 13, .rws, 0x30, .range 1 8000⟩]⟩,
  ⟨0x98, 1, 0x8, .tx, [⟨32, 7, .rws, 0x61, .range 96 127⟩, ⟨0, 32, .rws, 0, .any⟩]⟩,
  ⟨0xa0, 1, 0x8, .none, [⟨0, 8, .rw, 0, .range 0 135⟩]⟩,
  ⟨0xa8, 1, 0x8, .ts, [⟨8, 8, .rws, 0, .any⟩, ⟨0, 3, .rws, 0, .range 0 4⟩]⟩]

/-- The block registers of a page family. -/
def blockRegs : PageKind → List RegDesc
  | .dir => dirRegs
  | .kpr => kprRegs
  | .boot => bootRegs
  | .sec => secRegs
  | .hif => hifRegs
  | .fab => fabRegs
  | .pmc => pmcRegs
  | .chk => chkRegs
  | .lane => laneRegs
  | .mac => macRegs
  | .pcie => pcieRegs
  | .sds => sdsRegs
  | .ptp => ptpRegs
  | .tsu => tsuRegs
  | .clk => clkRegs
  | .ref => refRegs
  | .chin => chinRegs
  | .flow => flowRegs
  | .paf => pafRegs
  | .bay => bayRegs
  | .arcc => arccRegs
  | .eau => eauRegs
  | .mze => mzeRegs
  | .dsp => dspRegs
  | .stc => stcRegs
  | .asm => asmRegs
  | .seal => sealRegs
  | .gate => gateRegs
  | .shp => shpRegs
  | .que => queRegs
  | .hbm => hbmRegs
  | .gal => galRegs
  | .pdm => pdmRegs
  | .tdm => tdmRegs
  | .audc => audcRegs

/-- The 202 pages of R474, one row per family. FEATURES of SDSn, SHPn and QUEn depend on n and are added in `pageFeatures`. -/
def pageTable : List PageInfo := [
  ⟨.dir, 0, 0x0, 1, 0, 0x1, 0x0, 0, []⟩,
  ⟨.kpr, 0, 0x1, 1, 1, 0x2, 0x0, 0, [5, 5, 5, 1, 7, 7, 7]⟩,
  ⟨.boot, 0, 0x2, 1, 2, 0x3, 0x0, 0, [1, 6, 7]⟩,
  ⟨.sec, 0, 0x3, 1, 3, 0x4, 0x0, 0, []⟩,
  ⟨.hif, 0, 0x4, 1, 4, 0x5, 0x0, 0, [2, 2]⟩,
  ⟨.fab, 0, 0x5, 1, 5, 0x6, 0x0, 0, [1, 4, 6, 4, 7]⟩,
  ⟨.pmc, 0, 0x6, 1, 6, 0x7, 0x0, 0, [1]⟩,
  ⟨.chk, 0, 0x7, 1, 7, 0x8, 0x0, 0, [1, 2]⟩,
  ⟨.lane, 1, 0x0, 4, 8, 0x101, 0x7, 0, [1, 2, 1, 2]⟩,
  ⟨.mac, 1, 0x4, 4, 12, 0x102, 0x0, 0, [2]⟩,
  ⟨.pcie, 1, 0x8, 1, 16, 0x103, 0x58, 0, []⟩,
  ⟨.sds, 1, 0x10, 24, 17, 0x104, 0x0, 0, []⟩,
  ⟨.ptp, 2, 0x0, 1, 41, 0x201, 0x0, 0, [1, 2, 2, 2, 2, 1]⟩,
  ⟨.tsu, 2, 0x1, 1, 42, 0x202, 0x0, 0, []⟩,
  ⟨.clk, 2, 0x2, 1, 43, 0x203, 0x0, 0, []⟩,
  ⟨.ref, 2, 0x3, 1, 44, 0x204, 0x0, 4, [1, 2]⟩,
  ⟨.chin, 3, 0x0, 8, 45, 0x301, 0x0, 2, [3, 3, 3, 3, 2]⟩,
  ⟨.flow, 3, 0x10, 64, 53, 0x302, 0x0, 0, [2, 1, 2, 1]⟩,
  ⟨.paf, 4, 0x0, 8, 117, 0x401, 0x0, 2, [1, 2, 2, 3]⟩,
  ⟨.bay, 5, 0x0, 16, 125, 0x501, 0x3, 0, [4, 4]⟩,
  ⟨.arcc, 5, 0x10, 1, 141, 0x502, 0x0, 0, [4]⟩,
  ⟨.eau, 5, 0x20, 16, 142, 0x503, 0x0, 0, []⟩,
  ⟨.mze, 6, 0x0, 8, 158, 0x601, 0x3, 0, [4]⟩,
  ⟨.dsp, 7, 0x0, 1, 166, 0x701, 0x0, 0, [2, 1]⟩,
  ⟨.stc, 7, 0x1, 8, 167, 0x702, 0x0, 1, [2, 3, 1, 4, 2, 3, 2, 2]⟩,
  ⟨.asm, 8, 0x0, 1, 175, 0x801, 0x0, 0, []⟩,
  ⟨.seal, 8, 0x1, 1, 176, 0x802, 0x0, 0, []⟩,
  ⟨.gate, 8, 0x4, 4, 177, 0x803, 0x0, 3, [1, 1, 2]⟩,
  ⟨.shp, 8, 0x8, 4, 181, 0x804, 0x0, 0, []⟩,
  ⟨.que, 8, 0x20, 8, 185, 0x805, 0x0, 0, [2]⟩,
  ⟨.hbm, 9, 0x0, 2, 193, 0x901, 0x1020, 0, [1, 4, 2]⟩,
  ⟨.gal, 9, 0x2, 1, 195, 0x902, 0x0, 0, [1, 4]⟩,
  ⟨.pdm, 10, 0x0, 1, 196, 0xa01, 0x0, 4, [2]⟩,
  ⟨.tdm, 10, 0x1, 4, 197, 0xa02, 0x0, 0, [1, 2, 1]⟩,
  ⟨.audc, 10, 0x5, 1, 201, 0xa03, 0x0, 4, [1, 2, 2]⟩]

end Sys2Proof.Machine
end

