-- ==== Sys2Proof/Machine/Fields.lean ====
section
/-!
DEFINITION. Machine/Fields.lean: a name for every field of every register, spelt as the spec spells PAGE.REGISTER.FIELD.
A name gives where the field stands: the register's key (its BAR0 address under R13; for a register that shows one of many
objects, plus 2^24 times the object's number) and the field's bits. `n` is the page's instance, `k` the register's number in
its array, `i` the object's number.
-/
namespace Sys2Proof.Machine

/-- A field: the key of its register, its lowest bit and its width. -/
structure Fld where
  key : Nat
  lo  : Nat
  w   : Nat
deriving DecidableEq, Repr

/-- The key of a register that shows object `i` of many: its BAR0 address and the object's number. -/
def winKey (addr i : Nat) : Nat := addr + i * 0x1000000

/-! Page DIR (spec 22 R480). -/
def DIR.ENTRY_COMMIT_PT (k : Nat) : Fld := ⟨0x40 + 0x8 * k, 36, 3⟩
def DIR.ENTRY_SUBSYS (k : Nat) : Fld := ⟨0x40 + 0x8 * k, 32, 4⟩
def DIR.ENTRY_PAGE (k : Nat) : Fld := ⟨0x40 + 0x8 * k, 24, 8⟩
def DIR.ENTRY_TYPE (k : Nat) : Fld := ⟨0x40 + 0x8 * k, 8, 16⟩
def DIR.ENTRY_INSTANCE (k : Nat) : Fld := ⟨0x40 + 0x8 * k, 0, 8⟩
def DIR.INFO_PAGES : Fld := ⟨0x700, 16, 16⟩
def DIR.INFO_LAYOUT : Fld := ⟨0x700, 0, 16⟩

/-! Page KPR (spec 20 R462-R471, 02 R39-R46, 05 R152, 06 R161). -/
def KPR.RESET_CONFIRM : Fld := ⟨0x1040, 16, 16⟩
def KPR.RESET_GO : Fld := ⟨0x1040, 2, 1⟩
def KPR.RESET_KIND : Fld := ⟨0x1040, 0, 2⟩
def KPR.RESET_STAT_COLDS : Fld := ⟨0x1048, 32, 16⟩
def KPR.RESET_STAT_WARMS : Fld := ⟨0x1048, 16, 16⟩
def KPR.RESET_STAT_HELD : Fld := ⟨0x1048, 4, 1⟩
def KPR.RESET_STAT_BY_WDOG : Fld := ⟨0x1048, 3, 1⟩
def KPR.RESET_STAT_LAST : Fld := ⟨0x1048, 0, 3⟩
def KPR.WDOG_CFG_WARM : Fld := ⟨0x1050, 16, 1⟩
def KPR.WDOG_CFG_TIMEOUT_MS : Fld := ⟨0x1050, 0, 16⟩
def KPR.WDOG_STAT_EXPIRIES : Fld := ⟨0x1058, 32, 16⟩
def KPR.WDOG_STAT_EXPIRED : Fld := ⟨0x1058, 0, 4⟩
def KPR.FLOG_STAT_EMPTY : Fld := ⟨0x1060, 32, 1⟩
def KPR.FLOG_STAT_NEWEST : Fld := ⟨0x1060, 0, 32⟩
def KPR.FLOG_SEL_SEQ : Fld := ⟨0x1068, 0, 32⟩
def KPR.FLOG_W_WORD (k : Nat) : Fld := ⟨0x1070 + 0x8 * k, 0, 48⟩
def KPR.THERM_STAT_HBM1_C : Fld := ⟨0x1100, 40, 8⟩
def KPR.THERM_STAT_HBM0_C : Fld := ⟨0x1100, 32, 8⟩
def KPR.THERM_STAT_DIE_MAX_C : Fld := ⟨0x1100, 24, 8⟩
def KPR.THERM_STAT_SITE : Fld := ⟨0x1100, 16, 4⟩
def KPR.THERM_STAT_RAIL_FAULT : Fld := ⟨0x1100, 3, 1⟩
def KPR.THERM_STAT_TRIPPED : Fld := ⟨0x1100, 2, 1⟩
def KPR.THERM_STAT_HBM_HOT : Fld := ⟨0x1100, 1, 1⟩
def KPR.THERM_STAT_THROTTLE : Fld := ⟨0x1100, 0, 1⟩
def KPR.THERM_CFG_HYST_C : Fld := ⟨0x1108, 8, 8⟩
def KPR.THERM_CFG_THROTTLE_ON_C : Fld := ⟨0x1108, 0, 8⟩
def KPR.RAIL_STAT_MAIN_MV : Fld := ⟨0x1110, 36, 12⟩
def KPR.RAIL_STAT_MAIN_DA : Fld := ⟨0x1110, 24, 12⟩
def KPR.RAIL_STAT_AUX_MV : Fld := ⟨0x1110, 12, 12⟩
def KPR.RAIL_STAT_AUX_CA : Fld := ⟨0x1110, 0, 12⟩
def KPR.FRZ_STAT_FROZEN : Fld := ⟨0x1118, 0, 31⟩
def KPR.THAW_GO : Fld := ⟨0x1120, 9, 1⟩
def KPR.THAW_RESET : Fld := ⟨0x1120, 8, 1⟩
def KPR.THAW_MASTER : Fld := ⟨0x1120, 0, 5⟩
def KPR.TIME_SEC_SEC : Fld := ⟨0x1128, 0, 48⟩
def KPR.TIME_NS_VALID : Fld := ⟨0x1130, 47, 1⟩
def KPR.TIME_NS_NS : Fld := ⟨0x1130, 16, 30⟩
def KPR.TIME_NS_FRAC : Fld := ⟨0x1130, 0, 16⟩

/-! Page BOOT (spec 03 R54-R76, 20). -/
def BOOT.IMG_LEN_LEN : Fld := ⟨0x2040, 0, 25⟩
def BOOT.GO_GO : Fld := ⟨0x2048, 0, 1⟩
def BOOT.STAT_LATE_WR : Fld := ⟨0x2050, 40, 8⟩
def BOOT.STAT_FOREIGN_WR : Fld := ⟨0x2050, 32, 8⟩
def BOOT.STAT_BOOTS : Fld := ⟨0x2050, 16, 16⟩
def BOOT.STAT_OWNER_CHECKED : Fld := ⟨0x2050, 12, 1⟩
def BOOT.STAT_SRC : Fld := ⟨0x2050, 10, 2⟩
def BOOT.STAT_STEP : Fld := ⟨0x2050, 4, 4⟩
def BOOT.STAT_RESULT : Fld := ⟨0x2050, 0, 4⟩
def BOOT.STAGE_ADDR_ADDR : Fld := ⟨0x2058, 0, 25⟩
def BOOT.STAGE_DATA_DATA : Fld := ⟨0x2060, 0, 48⟩
def BOOT.LAST_TIME_VERIFY_US : Fld := ⟨0x2068, 24, 24⟩
def BOOT.LAST_TIME_INIT_US : Fld := ⟨0x2068, 0, 24⟩

/-! Page SEC (spec 03 R78-R89). -/
def SEC.OTP_INDEX_INDEX : Fld := ⟨0x3040, 0, 9⟩
def SEC.OTP_DATA_DATA : Fld := ⟨0x3048, 0, 32⟩
def SEC.OWNER_HASH_BYTES (k : Nat) : Fld := ⟨0x3050 + 0x8 * k, 0, 32⟩
def SEC.ATT_NONCE_BYTES (k : Nat) : Fld := ⟨0x3090 + 0x8 * k, 0, 32⟩
def SEC.FUSE_CTRL_OWNER_PROG : Fld := ⟨0x30d0, 17, 1⟩
def SEC.FUSE_CTRL_RB_COMMIT : Fld := ⟨0x30d0, 16, 1⟩
def SEC.FUSE_CTRL_CONFIRM : Fld := ⟨0x30d0, 0, 16⟩
def SEC.FUSE_STAT_OWNER_DAMAGED : Fld := ⟨0x30d8, 10, 1⟩
def SEC.FUSE_STAT_OWNER_ENABLE : Fld := ⟨0x30d8, 9, 1⟩
def SEC.FUSE_STAT_BUSY : Fld := ⟨0x30d8, 8, 1⟩
def SEC.FUSE_STAT_RB_COUNT : Fld := ⟨0x30d8, 0, 7⟩
def SEC.ATT_CTRL_GO : Fld := ⟨0x30e0, 0, 1⟩
def SEC.ATT_STAT_GEN : Fld := ⟨0x30e8, 8, 8⟩
def SEC.ATT_STAT_VALID : Fld := ⟨0x30e8, 1, 1⟩
def SEC.ATT_STAT_BUSY : Fld := ⟨0x30e8, 0, 1⟩
def SEC.ATT_INDEX_INDEX : Fld := ⟨0x30f0, 0, 8⟩
def SEC.ATT_DATA_DATA : Fld := ⟨0x30f8, 0, 32⟩

/-! Page HIF (spec 04 R92-R126). -/
def HIF.HB_CFG_PERIOD_US : Fld := ⟨0x4040, 0, 20⟩
def HIF.ATTN_GEN_COUNT : Fld := ⟨0x4048, 0, 32⟩
def HIF.ATTN_SUM_SUBSYS : Fld := ⟨0x4050, 0, 11⟩
def HIF.ATTN_PAGE_PAGES (k : Nat) : Fld := ⟨0x4058 + 0x8 * k, 0, 48⟩
def HIF.BAR2_BASE_WINDOW : Fld := ⟨0x4080, 0, 7⟩
def HIF.PCIE_STAT_BAD_SIZE : Fld := ⟨0x4088, 32, 16⟩
def HIF.PCIE_STAT_BAR4_WR : Fld := ⟨0x4088, 16, 16⟩
def HIF.PCIE_STAT_RPL_DROPPED : Fld := ⟨0x4088, 0, 16⟩
def HIF.RING_FAULT_CQ : Fld := ⟨0x4090, 0, 16⟩
def HIF.CQ_BASE_ADDR (k : Nat) : Fld := ⟨0x4100 + 0x20 * k, 0, 48⟩
def HIF.CQ_ENTRIES_ENTRIES (k : Nat) : Fld := ⟨0x4108 + 0x20 * k, 0, 17⟩
def HIF.CQ_PI_PI (k : Nat) : Fld := ⟨0x4110 + 0x20 * k, 0, 16⟩
def HIF.CQ_CI_CI (k : Nat) : Fld := ⟨0x4118 + 0x20 * k, 0, 16⟩
def HIF.RQ_BASE_ADDR (k : Nat) : Fld := ⟨0x4300 + 0x20 * k, 0, 48⟩
def HIF.RQ_ENTRIES_ENTRIES (k : Nat) : Fld := ⟨0x4308 + 0x20 * k, 0, 17⟩
def HIF.RQ_PI_PI (k : Nat) : Fld := ⟨0x4310 + 0x20 * k, 0, 16⟩
def HIF.RQ_CI_CI (k : Nat) : Fld := ⟨0x4318 + 0x20 * k, 0, 16⟩

/-! Page FAB (spec 05 R127-R153). -/
def FAB.DFLT_STAT_COUNT : Fld := ⟨0x5040, 8, 32⟩
def FAB.DFLT_STAT_MASTER : Fld := ⟨0x5040, 0, 5⟩
def FAB.DFLT_ADDR_ADDR : Fld := ⟨0x5048, 0, 36⟩
def FAB.VIOL_STAT_COUNT : Fld := ⟨0x5050, 16, 32⟩
def FAB.VIOL_STAT_WRITE : Fld := ⟨0x5050, 7, 1⟩
def FAB.VIOL_STAT_KIND : Fld := ⟨0x5050, 5, 2⟩
def FAB.VIOL_STAT_MASTER : Fld := ⟨0x5050, 0, 5⟩
def FAB.VIOL_ADDR_ADDR : Fld := ⟨0x5058, 0, 36⟩
def FAB.M_PAGE0_PAGES (k : Nat) : Fld := ⟨0x5100 + 0x40 * k, 0, 48⟩
def FAB.M_PAGE1_PAGES (k : Nat) : Fld := ⟨0x5108 + 0x40 * k, 0, 48⟩
def FAB.M_PAGE2_PAGES (k : Nat) : Fld := ⟨0x5110 + 0x40 * k, 0, 48⟩
def FAB.M_PAGE3_PAGES (k : Nat) : Fld := ⟨0x5118 + 0x40 * k, 0, 48⟩
def FAB.M_PAGE4_PAGES (k : Nat) : Fld := ⟨0x5120 + 0x40 * k, 0, 48⟩
def FAB.M_HBM_READ (k : Nat) : Fld := ⟨0x5128 + 0x40 * k, 16, 16⟩
def FAB.M_HBM_WRITE (k : Nat) : Fld := ⟨0x5128 + 0x40 * k, 0, 16⟩
def FAB.M_GAL_READ (k : Nat) : Fld := ⟨0x5130 + 0x40 * k, 16, 16⟩
def FAB.M_GAL_WRITE (k : Nat) : Fld := ⟨0x5130 + 0x40 * k, 0, 16⟩
def FAB.M_STAT_ERRORS (k : Nat) : Fld := ⟨0x5138 + 0x40 * k, 32, 16⟩
def FAB.M_STAT_DRAINING (k : Nat) : Fld := ⟨0x5138 + 0x40 * k, 8, 1⟩
def FAB.M_STAT_FROZEN (k : Nat) : Fld := ⟨0x5138 + 0x40 * k, 7, 1⟩
def FAB.M_STAT_OUTSTANDING (k : Nat) : Fld := ⟨0x5138 + 0x40 * k, 0, 7⟩
def FAB.M_CTRL_LEVEL (k : Nat) : Fld := ⟨0x58c0 + 0x8 * k, 0, 2⟩

/-! Page PMC (spec 19 R448-R454). -/
def PMC.WIN_GROUP : Fld := ⟨0x6040, 0, 3⟩
def PMC.CTRL_CLEAR_ALL : Fld := ⟨0x6048, 0, 1⟩
def PMC.CNT_COUNT (k : Nat) (i : Nat) : Fld := ⟨winKey (0x6200 + 0x8 * k) i, 0, 48⟩
def PMC.EVSEL_EN (k : Nat) (i : Nat) : Fld := ⟨winKey (0x6400 + 0x8 * k) i, 47, 1⟩
def PMC.EVSEL_CHAIN (k : Nat) (i : Nat) : Fld := ⟨winKey (0x6400 + 0x8 * k) i, 46, 1⟩
def PMC.EVSEL_OVF (k : Nat) (i : Nat) : Fld := ⟨winKey (0x6400 + 0x8 * k) i, 45, 1⟩
def PMC.EVSEL_OVF_LOST (k : Nat) (i : Nat) : Fld := ⟨winKey (0x6400 + 0x8 * k) i, 44, 1⟩
def PMC.EVSEL_OVF_EV (k : Nat) (i : Nat) : Fld := ⟨winKey (0x6400 + 0x8 * k) i, 43, 1⟩
def PMC.EVSEL_SUBSYS (k : Nat) (i : Nat) : Fld := ⟨winKey (0x6400 + 0x8 * k) i, 32, 4⟩
def PMC.EVSEL_INSTANCE (k : Nat) (i : Nat) : Fld := ⟨winKey (0x6400 + 0x8 * k) i, 24, 8⟩
def PMC.EVSEL_EVENT (k : Nat) (i : Nat) : Fld := ⟨winKey (0x6400 + 0x8 * k) i, 0, 16⟩

/-! Page CHK (spec 15 R380-R387). -/
def CHK.UCTL_RESET (k : Nat) : Fld := ⟨0x7040 + 0x8 * k, 9, 1⟩
def CHK.UCTL_FEED_BYTES (k : Nat) : Fld := ⟨0x7040 + 0x8 * k, 4, 3⟩
def CHK.UCTL_POLY (k : Nat) : Fld := ⟨0x7040 + 0x8 * k, 0, 2⟩
def CHK.DATA_DATA (k : Nat) : Fld := ⟨0x7080 + 0x8 * k, 0, 48⟩
def CHK.VALHI_HI (k : Nat) : Fld := ⟨0x70c0 + 0x8 * k, 0, 32⟩
def CHK.VALLO_LO (k : Nat) : Fld := ⟨0x7100 + 0x8 * k, 0, 32⟩
def CHK.BYTES_COUNT (k : Nat) : Fld := ⟨0x7140 + 0x8 * k, 0, 48⟩
def CHK.SCAN_ADDR_ADDR : Fld := ⟨0x7180, 0, 36⟩
def CHK.SCAN_LEN_LEN : Fld := ⟨0x7188, 0, 36⟩
def CHK.SCAN_CTRL_ABORT : Fld := ⟨0x7190, 9, 1⟩
def CHK.SCAN_CTRL_GO : Fld := ⟨0x7190, 8, 1⟩
def CHK.SCAN_CTRL_UNIT : Fld := ⟨0x7190, 4, 3⟩
def CHK.SCAN_STAT_POISONED : Fld := ⟨0x7198, 24, 24⟩
def CHK.SCAN_STAT_RESULT : Fld := ⟨0x7198, 20, 3⟩
def CHK.SCAN_STAT_STATE : Fld := ⟨0x7198, 0, 3⟩
def CHK.SCAN_DONE_BYTES : Fld := ⟨0x71a0, 0, 36⟩

/-! Page LANE (spec 07 R185-R203). -/
def LANE.CFG_RX_INV (n : Nat) : Fld := ⟨0x100040 + 0x1000 * n, 20, 4⟩
def LANE.CFG_TX_INV (n : Nat) : Fld := ⟨0x100040 + 0x1000 * n, 16, 4⟩
def LANE.CFG_TX_SQUELCH (n : Nat) : Fld := ⟨0x100040 + 0x1000 * n, 13, 1⟩
def LANE.CFG_ADAPT_HOLD (n : Nat) : Fld := ⟨0x100040 + 0x1000 * n, 12, 1⟩
def LANE.CFG_LOOP (n : Nat) : Fld := ⟨0x100040 + 0x1000 * n, 8, 2⟩
def LANE.CFG_DEEP_REST (n : Nat) : Fld := ⟨0x100040 + 0x1000 * n, 4, 1⟩
def LANE.CFG_FEC_OFF (n : Nat) : Fld := ⟨0x100040 + 0x1000 * n, 2, 1⟩
def LANE.CFG_SPEED (n : Nat) : Fld := ⟨0x100040 + 0x1000 * n, 0, 2⟩
def LANE.TXEQ_PRE (n : Nat) (k : Nat) : Fld := ⟨0x100048 + 0x1000 * n + 0x8 * k, 16, 5⟩
def LANE.TXEQ_MAIN (n : Nat) (k : Nat) : Fld := ⟨0x100048 + 0x1000 * n + 0x8 * k, 8, 7⟩
def LANE.TXEQ_POST (n : Nat) (k : Nat) : Fld := ⟨0x100048 + 0x1000 * n + 0x8 * k, 0, 5⟩
def LANE.STAT_CLAMPED (n : Nat) : Fld := ⟨0x100068 + 0x1000 * n, 12, 4⟩
def LANE.STAT_CDR_LOCK (n : Nat) : Fld := ⟨0x100068 + 0x1000 * n, 8, 4⟩
def LANE.STAT_FROZEN (n : Nat) : Fld := ⟨0x100068 + 0x1000 * n, 7, 1⟩
def LANE.STAT_STATE (n : Nat) : Fld := ⟨0x100068 + 0x1000 * n, 0, 3⟩
def LANE.RXEQ_CTLE (n : Nat) (k : Nat) : Fld := ⟨0x100070 + 0x1000 * n + 0x8 * k, 40, 5⟩
def LANE.RXEQ_DFE (n : Nat) (k : Nat) : Fld := ⟨0x100070 + 0x1000 * n + 0x8 * k, 0, 40⟩
def LANE.TEST_CHECK (n : Nat) : Fld := ⟨0x100090 + 0x1000 * n, 4, 4⟩
def LANE.TEST_GEN (n : Nat) : Fld := ⟨0x100090 + 0x1000 * n, 0, 4⟩
def LANE.PRBS_ERR_ERRORS (n : Nat) : Fld := ⟨0x100098 + 0x1000 * n, 0, 48⟩

/-! Page MAC (spec 07 R204-R206). -/
def MAC.ADDR_ADDR (n : Nat) : Fld := ⟨0x104040 + 0x1000 * n, 0, 48⟩
def MAC.IPV4_IPV4 (n : Nat) : Fld := ⟨0x104048 + 0x1000 * n, 0, 32⟩
def MAC.CFG_IGMP_EN (n : Nat) : Fld := ⟨0x104050 + 0x1000 * n, 17, 1⟩
def MAC.CFG_ARP_EN (n : Nat) : Fld := ⟨0x104050 + 0x1000 * n, 16, 1⟩
def MAC.CFG_MAX_FRAME (n : Nat) : Fld := ⟨0x104050 + 0x1000 * n, 0, 14⟩
def MAC.STAT_PATH (n : Nat) : Fld := ⟨0x104058 + 0x1000 * n, 3, 1⟩
def MAC.STAT_SPEED (n : Nat) : Fld := ⟨0x104058 + 0x1000 * n, 1, 2⟩
def MAC.STAT_LINK (n : Nat) : Fld := ⟨0x104058 + 0x1000 * n, 0, 1⟩
def MAC.SEQ_V (n : Nat) : Fld := ⟨0x104100 + 0x1000 * n, 0, 48⟩
def MAC.RX_FRAMES_V (n : Nat) : Fld := ⟨0x104108 + 0x1000 * n, 0, 48⟩
def MAC.RX_BYTES_V (n : Nat) : Fld := ⟨0x104110 + 0x1000 * n, 0, 48⟩
def MAC.RX_FCS_ERR_V (n : Nat) : Fld := ⟨0x104118 + 0x1000 * n, 0, 48⟩
def MAC.RX_OVERSIZE_V (n : Nat) : Fld := ⟨0x104120 + 0x1000 * n, 0, 48⟩
def MAC.RX_UNDERSIZE_V (n : Nat) : Fld := ⟨0x104128 + 0x1000 * n, 0, 48⟩
def MAC.RX_FILTERED_V (n : Nat) : Fld := ⟨0x104130 + 0x1000 * n, 0, 48⟩
def MAC.RX_PAUSE_V (n : Nat) : Fld := ⟨0x104138 + 0x1000 * n, 0, 48⟩
def MAC.FEC_CORR_CW_V (n : Nat) : Fld := ⟨0x104140 + 0x1000 * n, 0, 48⟩
def MAC.FEC_UNCORR_CW_V (n : Nat) : Fld := ⟨0x104148 + 0x1000 * n, 0, 48⟩
def MAC.FEC_SYMBOLS_V (n : Nat) : Fld := ⟨0x104150 + 0x1000 * n, 0, 48⟩
def MAC.TX_FRAMES_V (n : Nat) : Fld := ⟨0x104158 + 0x1000 * n, 0, 48⟩
def MAC.TX_BYTES_V (n : Nat) : Fld := ⟨0x104160 + 0x1000 * n, 0, 48⟩
def MAC.TX_DOWN_DROPPED_V (n : Nat) : Fld := ⟨0x104168 + 0x1000 * n, 0, 48⟩
def MAC.TX_LOOP_DROPPED_V (n : Nat) : Fld := ⟨0x104170 + 0x1000 * n, 0, 48⟩
def MAC.LINK_DOWNS_V (n : Nat) : Fld := ⟨0x104178 + 0x1000 * n, 0, 48⟩
def MAC.IDLE_FREEZES_V (n : Nat) : Fld := ⟨0x104180 + 0x1000 * n, 0, 48⟩

/-! Page PCIE (spec 07 R192-R193). -/
def PCIE.LINK_RECOVERIES : Fld := ⟨0x108040, 32, 16⟩
def PCIE.LINK_LTSSM : Fld := ⟨0x108040, 8, 8⟩
def PCIE.LINK_WIDTH : Fld := ⟨0x108040, 3, 4⟩
def PCIE.LINK_RATE : Fld := ⟨0x108040, 0, 3⟩

/-! Page SDS (spec 22 R482). -/
def SDS.EYE_HEIGHT (n : Nat) : Fld := ⟨0x110040 + 0x1000 * n, 40, 8⟩
def SDS.EYE_WIDTH (n : Nat) : Fld := ⟨0x110040 + 0x1000 * n, 32, 8⟩
def SDS.EYE_SEQ (n : Nat) : Fld := ⟨0x110040 + 0x1000 * n, 16, 16⟩
def SDS.CAL_RX_TERM (n : Nat) : Fld := ⟨0x110048 + 0x1000 * n, 16, 8⟩
def SDS.CAL_TX_TERM (n : Nat) : Fld := ⟨0x110048 + 0x1000 * n, 8, 8⟩
def SDS.CAL_OFFSET (n : Nat) : Fld := ⟨0x110048 + 0x1000 * n, 0, 8⟩
def SDS.STAT_SIGNAL (n : Nat) : Fld := ⟨0x110050 + 0x1000 * n, 2, 1⟩
def SDS.STAT_CDR_LOCK (n : Nat) : Fld := ⟨0x110050 + 0x1000 * n, 1, 1⟩
def SDS.STAT_POWERED (n : Nat) : Fld := ⟨0x110050 + 0x1000 * n, 0, 1⟩

/-! Page PTP (spec 06 R164-R178). -/
def PTP.CFG_DOMAIN : Fld := ⟨0x200040, 32, 8⟩
def PTP.CFG_PORT_MASK : Fld := ⟨0x200040, 24, 4⟩
def PTP.CFG_DREQ_UNICAST : Fld := ⟨0x200040, 16, 1⟩
def PTP.CFG_PROFILE : Fld := ⟨0x200040, 0, 2⟩
def PTP.MODE_MODE : Fld := ⟨0x200048, 0, 2⟩
def PTP.INCR_INCR : Fld := ⟨0x200050, 0, 40⟩
def PTP.SERVO_KP : Fld := ⟨0x200058, 32, 16⟩
def PTP.SERVO_KI : Fld := ⟨0x200058, 16, 16⟩
def PTP.SERVO_LOCK_NS : Fld := ⟨0x200058, 0, 16⟩
def PTP.JUMP_THRESH_NS : Fld := ⟨0x200060, 0, 30⟩
def PTP.PD_STEP_NS : Fld := ⟨0x200068, 0, 20⟩
def PTP.PD_HOLD_S : Fld := ⟨0x200070, 0, 8⟩
def PTP.STEP_SEC_SEC : Fld := ⟨0x200078, 0, 48⟩
def PTP.STEP_CTRL_GO : Fld := ⟨0x200080, 32, 1⟩
def PTP.STEP_CTRL_NEG : Fld := ⟨0x200080, 31, 1⟩
def PTP.STEP_CTRL_NS : Fld := ⟨0x200080, 0, 30⟩
def PTP.STAT_REFUSED : Fld := ⟨0x200088, 32, 16⟩
def PTP.STAT_PATH_STEPS : Fld := ⟨0x200088, 24, 8⟩
def PTP.STAT_MASTER_CHANGES : Fld := ⟨0x200088, 16, 8⟩
def PTP.STAT_ACTIVE_PORT : Fld := ⟨0x200088, 6, 2⟩
def PTP.STAT_HOLD_WHY : Fld := ⟨0x200088, 4, 2⟩
def PTP.STAT_STATE : Fld := ⟨0x200088, 0, 3⟩
def PTP.OFFSET_SEC_SEC : Fld := ⟨0x200090, 0, 48⟩
def PTP.OFFSET_NS_SEQ : Fld := ⟨0x200098, 32, 16⟩
def PTP.OFFSET_NS_NS : Fld := ⟨0x200098, 0, 30⟩
def PTP.PATH_DELAY : Fld := ⟨0x2000a0, 0, 32⟩
def PTP.FREQ_ADJ_PPB : Fld := ⟨0x2000a8, 0, 32⟩
def PTP.GM_ID0_ID_HI : Fld := ⟨0x2000b0, 0, 48⟩
def PTP.GM_ID1_ID_LO : Fld := ⟨0x2000b8, 16, 16⟩
def PTP.GM_ID1_PORT : Fld := ⟨0x2000b8, 0, 16⟩

/-! Page TSU (spec 06 R178). -/
def TSU.ASYM_ASYM (k : Nat) : Fld := ⟨0x201040 + 0x8 * k, 0, 32⟩

/-! Page CLK (spec 06 R183-R184). -/
def CLK.STAT_SERDES_LOCK : Fld := ⟨0x202040, 8, 6⟩
def CLK.STAT_MCLK1_LOCK : Fld := ⟨0x202040, 4, 1⟩
def CLK.STAT_MCLK0_LOCK : Fld := ⟨0x202040, 3, 1⟩
def CLK.STAT_ENG_QUIET : Fld := ⟨0x202040, 2, 1⟩
def CLK.STAT_KEEPER_PLL : Fld := ⟨0x202040, 1, 1⟩
def CLK.STAT_ROOT_PLL : Fld := ⟨0x202040, 0, 1⟩
def CLK.MCLK_CFG_OUT_EN : Fld := ⟨0x202048, 1, 1⟩
def CLK.MCLK_CFG_SEL : Fld := ⟨0x202048, 0, 1⟩

/-! Page REF (spec 06 R179-R182). -/
def REF.CFG_RATE : Fld := ⟨0x203040, 4, 4⟩
def REF.CFG_ENABLE : Fld := ⟨0x203040, 0, 1⟩
def REF.STAT_BAD_PERIODS : Fld := ⟨0x203048, 32, 16⟩
def REF.STAT_LOSSES : Fld := ⟨0x203048, 16, 16⟩
def REF.STAT_SEEN : Fld := ⟨0x203048, 4, 4⟩
def REF.STAT_STATE : Fld := ⟨0x203048, 0, 2⟩
def REF.PHASE_PHASE : Fld := ⟨0x203050, 0, 32⟩

/-! Page CHIN (spec 08 R212-R232). -/
def CHIN.FMT_RANGE (n : Nat) : Fld := ⟨0x300040 + 0x1000 * n, 15, 1⟩
def CHIN.FMT_TCS (n : Nat) : Fld := ⟨0x300040 + 0x1000 * n, 13, 2⟩
def CHIN.FMT_COLOR (n : Nat) : Fld := ⟨0x300040 + 0x1000 * n, 11, 2⟩
def CHIN.FMT_SAMPLING (n : Nat) : Fld := ⟨0x300040 + 0x1000 * n, 10, 1⟩
def CHIN.FMT_SIZE (n : Nat) : Fld := ⟨0x300040 + 0x1000 * n, 8, 2⟩
def CHIN.FMT_RATE (n : Nat) : Fld := ⟨0x300040 + 0x1000 * n, 0, 4⟩
def CHIN.CTRL_REACQUIRE (n : Nat) : Fld := ⟨0x300048 + 0x1000 * n, 2, 1⟩
def CHIN.CTRL_RUN (n : Nat) : Fld := ⟨0x300048 + 0x1000 * n, 0, 1⟩
def CHIN.STAT_PICTURE (n : Nat) : Fld := ⟨0x300050 + 0x1000 * n, 16, 32⟩
def CHIN.STAT_REPEATS (n : Nat) : Fld := ⟨0x300050 + 0x1000 * n, 8, 8⟩
def CHIN.STAT_STATE (n : Nat) : Fld := ⟨0x300050 + 0x1000 * n, 0, 3⟩

/-! Page FLOW (spec 08 R207-R233). -/
def FLOW.CFG_PT (n : Nat) : Fld := ⟨0x310040 + 0x1000 * n, 16, 8⟩
def FLOW.CFG_SUBSTREAM (n : Nat) : Fld := ⟨0x310040 + 0x1000 * n, 8, 4⟩
def FLOW.CFG_SLOT (n : Nat) : Fld := ⟨0x310040 + 0x1000 * n, 4, 3⟩
def FLOW.CFG_KIND (n : Nat) : Fld := ⟨0x310040 + 0x1000 * n, 0, 2⟩
def FLOW.LEGA_ADDR_DST (n : Nat) : Fld := ⟨0x310048 + 0x1000 * n, 16, 32⟩
def FLOW.LEGA_ADDR_UDP (n : Nat) : Fld := ⟨0x310048 + 0x1000 * n, 0, 16⟩
def FLOW.LEGA_SRC_SRC (n : Nat) : Fld := ⟨0x310050 + 0x1000 * n, 0, 32⟩
def FLOW.LEGA_CFG_ENABLE (n : Nat) : Fld := ⟨0x310058 + 0x1000 * n, 16, 1⟩
def FLOW.LEGA_CFG_VLAN_EN (n : Nat) : Fld := ⟨0x310058 + 0x1000 * n, 15, 1⟩
def FLOW.LEGA_CFG_PORT (n : Nat) : Fld := ⟨0x310058 + 0x1000 * n, 12, 2⟩
def FLOW.LEGA_CFG_VID (n : Nat) : Fld := ⟨0x310058 + 0x1000 * n, 0, 12⟩
def FLOW.LEGB_ADDR_DST (n : Nat) : Fld := ⟨0x310060 + 0x1000 * n, 16, 32⟩
def FLOW.LEGB_ADDR_UDP (n : Nat) : Fld := ⟨0x310060 + 0x1000 * n, 0, 16⟩
def FLOW.LEGB_SRC_SRC (n : Nat) : Fld := ⟨0x310068 + 0x1000 * n, 0, 32⟩
def FLOW.LEGB_CFG_ENABLE (n : Nat) : Fld := ⟨0x310070 + 0x1000 * n, 16, 1⟩
def FLOW.LEGB_CFG_VLAN_EN (n : Nat) : Fld := ⟨0x310070 + 0x1000 * n, 15, 1⟩
def FLOW.LEGB_CFG_PORT (n : Nat) : Fld := ⟨0x310070 + 0x1000 * n, 12, 2⟩
def FLOW.LEGB_CFG_VID (n : Nat) : Fld := ⟨0x310070 + 0x1000 * n, 0, 12⟩
def FLOW.SNDR_TYPE (n : Nat) : Fld := ⟨0x310078 + 0x1000 * n, 32, 2⟩
def FLOW.SNDR_CMAX (n : Nat) : Fld := ⟨0x310078 + 0x1000 * n, 16, 16⟩
def FLOW.SNDR_VRX_FULL (n : Nat) : Fld := ⟨0x310078 + 0x1000 * n, 0, 16⟩
def FLOW.STAT_SKEW (n : Nat) : Fld := ⟨0x310080 + 0x1000 * n, 24, 24⟩
def FLOW.STAT_LEGB (n : Nat) : Fld := ⟨0x310080 + 0x1000 * n, 4, 2⟩
def FLOW.STAT_LEGA (n : Nat) : Fld := ⟨0x310080 + 0x1000 * n, 0, 2⟩
def FLOW.SEQ_V (n : Nat) : Fld := ⟨0x310100 + 0x1000 * n, 0, 48⟩
def FLOW.PKTS_A_V (n : Nat) : Fld := ⟨0x310108 + 0x1000 * n, 0, 48⟩
def FLOW.PKTS_B_V (n : Nat) : Fld := ⟨0x310110 + 0x1000 * n, 0, 48⟩
def FLOW.DUPLICATES_V (n : Nat) : Fld := ⟨0x310118 + 0x1000 * n, 0, 48⟩
def FLOW.GAPS_A_V (n : Nat) : Fld := ⟨0x310120 + 0x1000 * n, 0, 48⟩
def FLOW.GAPS_B_V (n : Nat) : Fld := ⟨0x310128 + 0x1000 * n, 0, 48⟩
def FLOW.LOST_BOTH_V (n : Nat) : Fld := ⟨0x310130 + 0x1000 * n, 0, 48⟩
def FLOW.LATE_V (n : Nat) : Fld := ⟨0x310138 + 0x1000 * n, 0, 48⟩
def FLOW.LATE_PICTURE_V (n : Nat) : Fld := ⟨0x310140 + 0x1000 * n, 0, 48⟩
def FLOW.OUT_OF_WINDOW_V (n : Nat) : Fld := ⟨0x310148 + 0x1000 * n, 0, 48⟩
def FLOW.MISFIT_V (n : Nat) : Fld := ⟨0x310150 + 0x1000 * n, 0, 48⟩
def FLOW.SNDR_VIOL_V (n : Nat) : Fld := ⟨0x310158 + 0x1000 * n, 0, 48⟩
def FLOW.MARGIN_MIN_V (n : Nat) : Fld := ⟨0x310160 + 0x1000 * n, 0, 48⟩

/-! Page PAF (spec 09 R234-R249). -/
def PAF.MZE_COPY_SAMPLING (n : Nat) : Fld := ⟨0x400040 + 0x1000 * n, 11, 1⟩
def PAF.MZE_COPY_RANGE (n : Nat) : Fld := ⟨0x400040 + 0x1000 * n, 10, 1⟩
def PAF.MZE_COPY_TCS (n : Nat) : Fld := ⟨0x400040 + 0x1000 * n, 8, 2⟩
def PAF.MZE_COPY_COLOR (n : Nat) : Fld := ⟨0x400040 + 0x1000 * n, 6, 2⟩
def PAF.MZE_COPY_SCALE (n : Nat) : Fld := ⟨0x400040 + 0x1000 * n, 4, 1⟩
def PAF.MZE_COPY_CONV (n : Nat) : Fld := ⟨0x400040 + 0x1000 * n, 1, 1⟩
def PAF.MZE_COPY_EN (n : Nat) : Fld := ⟨0x400040 + 0x1000 * n, 0, 1⟩
def PAF.PROXY_SUBSTREAM (n : Nat) : Fld := ⟨0x400048 + 0x1000 * n, 12, 4⟩
def PAF.PROXY_RANGE (n : Nat) : Fld := ⟨0x400048 + 0x1000 * n, 10, 1⟩
def PAF.PROXY_TCS (n : Nat) : Fld := ⟨0x400048 + 0x1000 * n, 8, 2⟩
def PAF.PROXY_COLOR (n : Nat) : Fld := ⟨0x400048 + 0x1000 * n, 6, 2⟩
def PAF.PROXY_CONV (n : Nat) : Fld := ⟨0x400048 + 0x1000 * n, 1, 1⟩
def PAF.PROXY_EN (n : Nat) : Fld := ⟨0x400048 + 0x1000 * n, 0, 1⟩
def PAF.LUT_ADDR_ADDR (n : Nat) (k : Nat) : Fld := ⟨0x400050 + 0x1000 * n + 0x18 * k, 0, 36⟩
def PAF.LUT_CTRL_LOAD (n : Nat) (k : Nat) : Fld := ⟨0x400058 + 0x1000 * n + 0x18 * k, 0, 1⟩
def PAF.LUT_STAT_GEN (n : Nat) (k : Nat) : Fld := ⟨0x400060 + 0x1000 * n + 0x18 * k, 32, 16⟩
def PAF.LUT_STAT_RESULT (n : Nat) (k : Nat) : Fld := ⟨0x400060 + 0x1000 * n + 0x18 * k, 24, 4⟩
def PAF.LUT_STAT_STALE_RUN (n : Nat) (k : Nat) : Fld := ⟨0x400060 + 0x1000 * n + 0x18 * k, 4, 4⟩
def PAF.LUT_STAT_PENDING (n : Nat) (k : Nat) : Fld := ⟨0x400060 + 0x1000 * n + 0x18 * k, 1, 1⟩
def PAF.LUT_STAT_BUSY (n : Nat) (k : Nat) : Fld := ⟨0x400060 + 0x1000 * n + 0x18 * k, 0, 1⟩
def PAF.STAT_RERUNS (n : Nat) : Fld := ⟨0x400080 + 0x1000 * n, 32, 16⟩
def PAF.STAT_CONCEALS (n : Nat) : Fld := ⟨0x400080 + 0x1000 * n, 16, 16⟩
def PAF.STAT_MARGIN_MIN (n : Nat) : Fld := ⟨0x400080 + 0x1000 * n, 0, 16⟩

/-! Page BAY (spec 10 R250-R288, 14 R349-R353). -/
def BAY.STAT_STATE (n : Nat) : Fld := ⟨0x500040 + 0x1000 * n, 45, 3⟩
def BAY.STAT_TREAD (n : Nat) : Fld := ⟨0x500040 + 0x1000 * n, 42, 3⟩
def BAY.STAT_LANDING (n : Nat) : Fld := ⟨0x500040 + 0x1000 * n, 39, 3⟩
def BAY.STAT_PROXY (n : Nat) : Fld := ⟨0x500040 + 0x1000 * n, 38, 1⟩
def BAY.STAT_SLOT (n : Nat) : Fld := ⟨0x500040 + 0x1000 * n, 35, 3⟩
def BAY.STAT_SUBSTREAM (n : Nat) : Fld := ⟨0x500040 + 0x1000 * n, 31, 4⟩
def BAY.STAT_STRIPE (n : Nat) : Fld := ⟨0x500040 + 0x1000 * n, 23, 8⟩
def BAY.TASK_PIC_PICTURE (n : Nat) : Fld := ⟨0x500048 + 0x1000 * n, 0, 32⟩
def BAY.LAST_TREADS (n : Nat) : Fld := ⟨0x500050 + 0x1000 * n, 24, 24⟩
def BAY.LAST_CYCLES (n : Nat) : Fld := ⟨0x500050 + 0x1000 * n, 0, 22⟩
def BAY.LAST_MARGIN_MARGIN (n : Nat) : Fld := ⟨0x500058 + 0x1000 * n, 0, 32⟩
def BAY.COUNT_STRIPES (n : Nat) : Fld := ⟨0x500060 + 0x1000 * n, 0, 48⟩
def BAY.BUSY_CYCLES (n : Nat) : Fld := ⟨0x500068 + 0x1000 * n, 0, 48⟩
def BAY.FAULT_RESIDUE (n : Nat) : Fld := ⟨0x500070 + 0x1000 * n, 32, 16⟩
def BAY.FAULT_FLOORED (n : Nat) : Fld := ⟨0x500070 + 0x1000 * n, 16, 16⟩
def BAY.FAULT_RECENT (n : Nat) : Fld := ⟨0x500070 + 0x1000 * n, 8, 2⟩
def BAY.RESIDUE_LAST_STAGE (n : Nat) : Fld := ⟨0x500078 + 0x1000 * n, 44, 4⟩
def BAY.RESIDUE_LAST_OUTCOME (n : Nat) : Fld := ⟨0x500078 + 0x1000 * n, 42, 2⟩
def BAY.RESIDUE_LAST_CTU (n : Nat) : Fld := ⟨0x500078 + 0x1000 * n, 34, 8⟩
def BAY.RESIDUE_LAST_STRIPE (n : Nat) : Fld := ⟨0x500078 + 0x1000 * n, 26, 8⟩
def BAY.RESIDUE_LAST_SLOT (n : Nat) : Fld := ⟨0x500078 + 0x1000 * n, 23, 3⟩
def BAY.RESIDUE_LAST_SUBSTREAM (n : Nat) : Fld := ⟨0x500078 + 0x1000 * n, 19, 4⟩
def BAY.RESIDUE_LAST_PROXY (n : Nat) : Fld := ⟨0x500078 + 0x1000 * n, 18, 1⟩

/-! Page ARCC (spec 10 R286). -/
def ARCC.BAYS_RETIRED : Fld := ⟨0x510040, 16, 16⟩
def ARCC.BAYS_AVAILABLE : Fld := ⟨0x510040, 0, 16⟩

/-! Page EAU (spec 22 R481). -/
def EAU.STAT_ASM_BUSY (n : Nat) : Fld := ⟨0x520040 + 0x1000 * n, 47, 1⟩
def EAU.STAT_FLOOR_BUSY (n : Nat) : Fld := ⟨0x520040 + 0x1000 * n, 46, 1⟩
def EAU.STAT_ELIGIBLE (n : Nat) : Fld := ⟨0x520040 + 0x1000 * n, 45, 1⟩
def EAU.STAT_PROXY (n : Nat) : Fld := ⟨0x520040 + 0x1000 * n, 41, 1⟩
def EAU.STAT_SLOT (n : Nat) : Fld := ⟨0x520040 + 0x1000 * n, 38, 3⟩
def EAU.STAT_SUBSTREAM (n : Nat) : Fld := ⟨0x520040 + 0x1000 * n, 34, 4⟩
def EAU.STAT_STRIPE (n : Nat) : Fld := ⟨0x520040 + 0x1000 * n, 26, 8⟩
def EAU.COUNT_ASSEMBLIES (n : Nat) : Fld := ⟨0x520048 + 0x1000 * n, 0, 48⟩
def EAU.FLOOR_FLOOR_RUNS (n : Nat) : Fld := ⟨0x520050 + 0x1000 * n, 32, 16⟩
def EAU.FLOOR_FLOOR_REPEATS (n : Nat) : Fld := ⟨0x520050 + 0x1000 * n, 16, 16⟩
def EAU.FLOOR_ASM_RERUNS (n : Nat) : Fld := ⟨0x520050 + 0x1000 * n, 0, 16⟩
def EAU.LAST_BYTES (n : Nat) : Fld := ⟨0x520058 + 0x1000 * n, 20, 28⟩
def EAU.LAST_CYCLES (n : Nat) : Fld := ⟨0x520058 + 0x1000 * n, 0, 15⟩

/-! Page MZE (spec 13 R328-R339). -/
def MZE.STAT_STATE (n : Nat) : Fld := ⟨0x600040 + 0x1000 * n, 45, 3⟩
def MZE.STAT_SLOT (n : Nat) : Fld := ⟨0x600040 + 0x1000 * n, 35, 3⟩
def MZE.STAT_SUBSTREAM (n : Nat) : Fld := ⟨0x600040 + 0x1000 * n, 31, 4⟩
def MZE.STAT_STRIPE (n : Nat) : Fld := ⟨0x600040 + 0x1000 * n, 23, 8⟩
def MZE.TASK_PIC_PICTURE (n : Nat) : Fld := ⟨0x600048 + 0x1000 * n, 0, 32⟩
def MZE.LAST_MARGIN (n : Nat) : Fld := ⟨0x600050 + 0x1000 * n, 22, 26⟩
def MZE.LAST_CYCLES (n : Nat) : Fld := ⟨0x600050 + 0x1000 * n, 0, 22⟩
def MZE.COUNT_TASKS (n : Nat) : Fld := ⟨0x600058 + 0x1000 * n, 0, 48⟩
def MZE.FAULT_FAULTS (n : Nat) : Fld := ⟨0x600060 + 0x1000 * n, 32, 16⟩
def MZE.FAULT_RECENT (n : Nat) : Fld := ⟨0x600060 + 0x1000 * n, 8, 2⟩
def MZE.FAULT_LAST_STAGE (n : Nat) : Fld := ⟨0x600068 + 0x1000 * n, 44, 4⟩
def MZE.FAULT_LAST_SLOT (n : Nat) : Fld := ⟨0x600068 + 0x1000 * n, 35, 3⟩
def MZE.FAULT_LAST_SUBSTREAM (n : Nat) : Fld := ⟨0x600068 + 0x1000 * n, 31, 4⟩
def MZE.FAULT_LAST_STRIPE (n : Nat) : Fld := ⟨0x600068 + 0x1000 * n, 23, 8⟩

/-! Page DSP (spec 12 R316-R327, 01 R24, 11 R306-R308). -/
def DSP.SPAN_REQ_GO : Fld := ⟨0x700040, 3, 1⟩
def DSP.SPAN_REQ_QUIET_CTU : Fld := ⟨0x700040, 2, 1⟩
def DSP.SPAN_REQ_TARGET : Fld := ⟨0x700040, 0, 2⟩
def DSP.SPAN_STAT_REASON : Fld := ⟨0x700048, 8, 4⟩
def DSP.SPAN_STAT_THERMAL : Fld := ⟨0x700048, 6, 1⟩
def DSP.SPAN_STAT_PENDING_TARGET : Fld := ⟨0x700048, 4, 2⟩
def DSP.SPAN_STAT_PENDING : Fld := ⟨0x700048, 3, 1⟩
def DSP.SPAN_STAT_CTU32 : Fld := ⟨0x700048, 2, 1⟩
def DSP.SPAN_STAT_CURRENT : Fld := ⟨0x700048, 0, 2⟩
def DSP.SPAN_TIME_SEC_LO : Fld := ⟨0x700050, 30, 18⟩
def DSP.SPAN_TIME_NS : Fld := ⟨0x700050, 0, 30⟩
def DSP.SLOTS_PEAK : Fld := ⟨0x700060, 16, 13⟩
def DSP.SLOTS_IN_USE : Fld := ⟨0x700060, 0, 13⟩
def DSP.TAGS_PEAK : Fld := ⟨0x700068, 16, 12⟩
def DSP.TAGS_IN_USE : Fld := ⟨0x700068, 0, 12⟩
def DSP.CREATED_COUNT : Fld := ⟨0x700070, 0, 48⟩
def DSP.DISPATCHED_COUNT : Fld := ⟨0x700078, 0, 48⟩
def DSP.CANCELLED_COUNT : Fld := ⟨0x700080, 0, 48⟩
def DSP.STALL_CYCLES : Fld := ⟨0x700088, 16, 32⟩
def DSP.STALL_CONVERTED : Fld := ⟨0x700088, 0, 16⟩
def DSP.POOL_EN (k : Nat) : Fld := ⟨0x700100 + 0x8 * k, 32, 1⟩
def DSP.POOL_RATE_KBPS (k : Nat) : Fld := ⟨0x700100 + 0x8 * k, 0, 25⟩
def DSP.POOL_STAT_MEMBERS (k : Nat) : Fld := ⟨0x700140 + 0x8 * k, 40, 8⟩
def DSP.POOL_STAT_FLOOR_SUM_KBPS (k : Nat) : Fld := ⟨0x700140 + 0x8 * k, 0, 25⟩
def DSP.READY_WAIT_MAX (k : Nat) : Fld := ⟨0x700180 + 0x8 * k, 32, 16⟩
def DSP.READY_COUNT (k : Nat) : Fld := ⟨0x700180 + 0x8 * k, 0, 13⟩

/-! Page STC (spec 11 R289-R315, 10 R258-R283, 13 R331-R343, 19 R455-R456). -/
def STC.TREAD_TREAD_TOP (n : Nat) : Fld := ⟨0x701040 + 0x1000 * n, 0, 3⟩
def STC.FLOOR_ALLOW (n : Nat) : Fld := ⟨0x701048 + 0x1000 * n, 16, 12⟩
def STC.FLOOR_FLOOR_QP (n : Nat) : Fld := ⟨0x701048 + 0x1000 * n, 0, 6⟩
def STC.TABLES_GEN (n : Nat) : Fld := ⟨0x701050 + 0x1000 * n, 32, 16⟩
def STC.TABLES_STALES (n : Nat) : Fld := ⟨0x701050 + 0x1000 * n, 16, 16⟩
def STC.TABLES_STALE_RUN (n : Nat) : Fld := ⟨0x701050 + 0x1000 * n, 4, 4⟩
def STC.TABLES_PENDING (n : Nat) : Fld := ⟨0x701050 + 0x1000 * n, 1, 1⟩
def STC.TABLES_BUSY (n : Nat) : Fld := ⟨0x701050 + 0x1000 * n, 0, 1⟩
def STC.FAULTS_REDISPATCHES (n : Nat) : Fld := ⟨0x701058 + 0x1000 * n, 32, 16⟩
def STC.FAULTS_FLOOR_SYNTHS (n : Nat) : Fld := ⟨0x701058 + 0x1000 * n, 16, 16⟩
def STC.FAULTS_LATE_RISKS (n : Nat) : Fld := ⟨0x701058 + 0x1000 * n, 0, 16⟩
def STC.OUT_RUN (n : Nat) (k : Nat) : Fld := ⟨0x701100 + 0x1000 * n + 0x8 * k, 47, 1⟩
def STC.OUT_POOLED (n : Nat) (k : Nat) : Fld := ⟨0x701100 + 0x1000 * n + 0x8 * k, 46, 1⟩
def STC.OUT_POOL (n : Nat) (k : Nat) : Fld := ⟨0x701100 + 0x1000 * n + 0x8 * k, 43, 3⟩
def STC.OUT_D (n : Nat) (k : Nat) : Fld := ⟨0x701100 + 0x1000 * n + 0x8 * k, 32, 9⟩
def STC.OUT_CAP_MBPS (n : Nat) (k : Nat) : Fld := ⟨0x701100 + 0x1000 * n + 0x8 * k, 21, 11⟩
def STC.OUT_RATE_KBPS (n : Nat) (k : Nat) : Fld := ⟨0x701100 + 0x1000 * n + 0x8 * k, 0, 21⟩
def STC.PROXY_OUT_RUN (n : Nat) : Fld := ⟨0x701180 + 0x1000 * n, 47, 1⟩
def STC.PROXY_OUT_D (n : Nat) : Fld := ⟨0x701180 + 0x1000 * n, 32, 9⟩
def STC.PROXY_OUT_RATE_KBPS (n : Nat) : Fld := ⟨0x701180 + 0x1000 * n, 0, 21⟩
def STC.CODEC_GDR_PERIOD (n : Nat) : Fld := ⟨0x7011c0 + 0x1000 * n, 32, 8⟩
def STC.CODEC_REFS (n : Nat) : Fld := ⟨0x7011c0 + 0x1000 * n, 8, 2⟩
def STC.CODEC_CHROMA (n : Nat) : Fld := ⟨0x7011c0 + 0x1000 * n, 4, 2⟩
def STC.CODEC_CODEC (n : Nat) : Fld := ⟨0x7011c0 + 0x1000 * n, 0, 1⟩
def STC.PROXY_CODEC_GDR_PERIOD (n : Nat) : Fld := ⟨0x7011c8 + 0x1000 * n, 32, 8⟩
def STC.PROXY_CODEC_REFS (n : Nat) : Fld := ⟨0x7011c8 + 0x1000 * n, 8, 2⟩
def STC.BUCKET_PEAK_PCT (n : Nat) (k : Nat) : Fld := ⟨0x701200 + 0x1000 * n + 0x8 * k, 40, 8⟩
def STC.BUCKET_OVERS (n : Nat) (k : Nat) : Fld := ⟨0x701200 + 0x1000 * n + 0x8 * k, 32, 8⟩
def STC.BUCKET_FILL (n : Nat) (k : Nat) : Fld := ⟨0x701200 + 0x1000 * n + 0x8 * k, 0, 32⟩
def STC.PROXY_BUCKET_PEAK_PCT (n : Nat) : Fld := ⟨0x701280 + 0x1000 * n, 40, 8⟩
def STC.PROXY_BUCKET_OVERS (n : Nat) : Fld := ⟨0x701280 + 0x1000 * n, 32, 8⟩
def STC.PROXY_BUCKET_FILL (n : Nat) : Fld := ⟨0x701280 + 0x1000 * n, 0, 32⟩
def STC.MZOUT_RUN (n : Nat) (k : Nat) : Fld := ⟨0x701300 + 0x1000 * n + 0x8 * k, 47, 1⟩
def STC.MZOUT_D (n : Nat) (k : Nat) : Fld := ⟨0x701300 + 0x1000 * n + 0x8 * k, 35, 9⟩
def STC.MZOUT_COLS (n : Nat) (k : Nat) : Fld := ⟨0x701300 + 0x1000 * n + 0x8 * k, 29, 6⟩
def STC.MZOUT_ROWS (n : Nat) (k : Nat) : Fld := ⟨0x701300 + 0x1000 * n + 0x8 * k, 23, 6⟩
def STC.MZOUT_BPP_X16 (n : Nat) (k : Nat) : Fld := ⟨0x701300 + 0x1000 * n + 0x8 * k, 12, 9⟩
def STC.MZSTAT_BAND_KBPS (n : Nat) (k : Nat) : Fld := ⟨0x701380 + 0x1000 * n + 0x8 * k, 21, 27⟩
def STC.MZSTAT_D_MIN (n : Nat) (k : Nat) : Fld := ⟨0x701380 + 0x1000 * n + 0x8 * k, 12, 9⟩
def STC.MZSTAT_HDR_BYTES (n : Nat) (k : Nat) : Fld := ⟨0x701380 + 0x1000 * n + 0x8 * k, 2, 10⟩
def STC.MZMAP_ADDR_ADDR (n : Nat) : Fld := ⟨0x701400 + 0x1000 * n, 0, 36⟩
def STC.MZMAP_CTRL_OUT (n : Nat) : Fld := ⟨0x701408 + 0x1000 * n, 8, 4⟩
def STC.MZMAP_CTRL_LOAD (n : Nat) : Fld := ⟨0x701408 + 0x1000 * n, 0, 1⟩
def STC.MZMAP_STAT_GEN (n : Nat) (k : Nat) : Fld := ⟨0x701410 + 0x1000 * n + 0x8 * k, 32, 16⟩
def STC.MZMAP_STAT_RESULT (n : Nat) (k : Nat) : Fld := ⟨0x701410 + 0x1000 * n + 0x8 * k, 24, 4⟩
def STC.MZMAP_STAT_STALE_RUN (n : Nat) (k : Nat) : Fld := ⟨0x701410 + 0x1000 * n + 0x8 * k, 4, 4⟩
def STC.MZMAP_STAT_PENDING (n : Nat) (k : Nat) : Fld := ⟨0x701410 + 0x1000 * n + 0x8 * k, 1, 1⟩
def STC.MZMAP_STAT_BUSY (n : Nat) (k : Nat) : Fld := ⟨0x701410 + 0x1000 * n + 0x8 * k, 0, 1⟩
def STC.MZCNT_FLOORED_SLICES (n : Nat) (k : Nat) : Fld := ⟨0x701490 + 0x1000 * n + 0x8 * k, 24, 24⟩
def STC.MZCNT_STALE_MAPS (n : Nat) (k : Nat) : Fld := ⟨0x701490 + 0x1000 * n + 0x8 * k, 8, 16⟩
def STC.STAT_SEL_PROXY (n : Nat) : Fld := ⟨0x7017f8 + 0x1000 * n, 4, 1⟩
def STC.STAT_SEL_SUBSTREAM (n : Nat) : Fld := ⟨0x7017f8 + 0x1000 * n, 0, 4⟩
def STC.SB0_PICTURE (n : Nat) : Fld := ⟨0x701800 + 0x1000 * n, 16, 32⟩
def STC.SB0_SEQ (n : Nat) : Fld := ⟨0x701800 + 0x1000 * n, 0, 16⟩
def STC.SB1_SEC_LO (n : Nat) : Fld := ⟨0x701808 + 0x1000 * n, 30, 18⟩
def STC.SB1_NS (n : Nat) : Fld := ⟨0x701808 + 0x1000 * n, 0, 30⟩
def STC.SB2_PIC_BITS (n : Nat) : Fld := ⟨0x701810 + 0x1000 * n, 0, 48⟩
def STC.SB3_MEAN_QP (n : Nat) : Fld := ⟨0x701818 + 0x1000 * n, 0, 16⟩
def STC.SBT_TREAD0 (n : Nat) (k : Nat) : Fld := ⟨0x701820 + 0x1000 * n + 0x8 * k, 0, 16⟩
def STC.SBT_TREAD1 (n : Nat) (k : Nat) : Fld := ⟨0x701820 + 0x1000 * n + 0x8 * k, 16, 16⟩
def STC.SBT_TREAD2 (n : Nat) (k : Nat) : Fld := ⟨0x701820 + 0x1000 * n + 0x8 * k, 32, 16⟩
def STC.SB7_CONCEALED_LINES (n : Nat) : Fld := ⟨0x701838 + 0x1000 * n, 32, 16⟩
def STC.SB7_REPEATS (n : Nat) : Fld := ⟨0x701838 + 0x1000 * n, 24, 8⟩
def STC.SB7_STALLED (n : Nat) : Fld := ⟨0x701838 + 0x1000 * n, 16, 8⟩
def STC.SB7_PASS_CONCEAL (n : Nat) : Fld := ⟨0x701838 + 0x1000 * n, 8, 8⟩
def STC.SB7_FORMAT_LOST (n : Nat) : Fld := ⟨0x701838 + 0x1000 * n, 7, 1⟩
def STC.SB8_FLOORED (n : Nat) : Fld := ⟨0x701840 + 0x1000 * n, 40, 8⟩
def STC.SB8_FLOOR_SYNTHS (n : Nat) : Fld := ⟨0x701840 + 0x1000 * n, 32, 8⟩
def STC.SB8_REDISPATCHES (n : Nat) : Fld := ⟨0x701840 + 0x1000 * n, 24, 8⟩
def STC.SB8_RESIDUE (n : Nat) : Fld := ⟨0x701840 + 0x1000 * n, 16, 8⟩
def STC.SB8_SUSPECT (n : Nat) : Fld := ⟨0x701840 + 0x1000 * n, 8, 8⟩
def STC.SB8_STALE (n : Nat) : Fld := ⟨0x701840 + 0x1000 * n, 4, 4⟩
def STC.SB8_TIME_DISC (n : Nat) : Fld := ⟨0x701840 + 0x1000 * n, 0, 4⟩
def STC.SBS_TREADS (n : Nat) (k : Nat) : Fld := ⟨0x701848 + 0x1000 * n + 0x8 * k, 24, 24⟩
def STC.SBS_BITS (n : Nat) (k : Nat) : Fld := ⟨0x701848 + 0x1000 * n + 0x8 * k, 0, 24⟩

/-! Page ASM (spec 15 R365-R366, 16 R393). -/
def ASM.OD_SEL_OUTPUT : Fld := ⟨0x800040, 0, 9⟩
def ASM.OD0_MODE (i : Nat) : Fld := ⟨winKey (0x800048) i, 46, 2⟩
def ASM.OD0_PAYLOAD_MAX (i : Nat) : Fld := ⟨winKey (0x800048) i, 32, 14⟩
def ASM.OD0_SSRC (i : Nat) : Fld := ⟨winKey (0x800048) i, 0, 32⟩
def ASM.OD1_PMT_PID (i : Nat) : Fld := ⟨winKey (0x800050) i, 35, 13⟩
def ASM.OD1_VIDEO_PID (i : Nat) : Fld := ⟨winKey (0x800050) i, 22, 13⟩
def ASM.OD1_SEAL_PID (i : Nat) : Fld := ⟨winKey (0x800050) i, 9, 13⟩
def ASM.OD1_PT (i : Nat) : Fld := ⟨winKey (0x800050) i, 2, 7⟩
def ASM.OD2_ANC_PID (i : Nat) : Fld := ⟨winKey (0x800058) i, 35, 13⟩
def ASM.OD2_AUD_PID (i : Nat) : Fld := ⟨winKey (0x800058) i, 22, 13⟩
def ASM.OD2_PROGRAM (i : Nat) : Fld := ⟨winKey (0x800058) i, 6, 16⟩
def ASM.OD3_STREAM_ID (i : Nat) : Fld := ⟨winKey (0x800060) i, 32, 16⟩
def ASM.OD3_QUEUE (i : Nat) : Fld := ⟨winKey (0x800060) i, 16, 13⟩
def ASM.HOLD_GAL_KIB : Fld := ⟨0x800080, 24, 24⟩
def ASM.HOLD_SPILL_KIB : Fld := ⟨0x800080, 0, 24⟩

/-! Page SEAL (spec 15 R374-R379). -/
def SEAL.CFG_VERSION : Fld := ⟨0x801040, 16, 8⟩
def SEAL.CFG_EXT_ID : Fld := ⟨0x801040, 0, 16⟩
def SEAL.SEL_REGION : Fld := ⟨0x801048, 16, 10⟩
def SEAL.SEL_OUTPUT : Fld := ⟨0x801048, 0, 9⟩
def SEAL.LAST_BYTES (k : Nat) (i : Nat) : Fld := ⟨winKey (0x801050 + 0x8 * k) i, 0, 32⟩

/-! Page GATE (spec 16 R401-R412). -/
def GATE.ADMIN_BASE_SEC_SEC (n : Nat) : Fld := ⟨0x804040 + 0x1000 * n, 0, 48⟩
def GATE.ADMIN_BASE_NS_NS (n : Nat) : Fld := ⟨0x804048 + 0x1000 * n, 0, 30⟩
def GATE.ADMIN_CYCLE_CYCLE (n : Nat) : Fld := ⟨0x804050 + 0x1000 * n, 0, 30⟩
def GATE.ADMIN_CTRL_EN (n : Nat) : Fld := ⟨0x804058 + 0x1000 * n, 47, 1⟩
def GATE.ADMIN_CTRL_LEN (n : Nat) : Fld := ⟨0x804058 + 0x1000 * n, 0, 10⟩
def GATE.ENT_IDX_LIST (n : Nat) : Fld := ⟨0x804060 + 0x1000 * n, 15, 1⟩
def GATE.ENT_IDX_INDEX (n : Nat) : Fld := ⟨0x804060 + 0x1000 * n, 0, 9⟩
def GATE.ENT_DATA_GATES (n : Nat) (i : Nat) : Fld := ⟨winKey (0x804068 + 0x1000 * n) i, 32, 8⟩
def GATE.ENT_DATA_DURATION (n : Nat) (i : Nat) : Fld := ⟨winKey (0x804068 + 0x1000 * n) i, 0, 32⟩
def GATE.CTRL_ABORT_PENDING (n : Nat) : Fld := ⟨0x804070 + 0x1000 * n, 0, 1⟩
def GATE.STAT_PENDING (n : Nat) : Fld := ⟨0x804078 + 0x1000 * n, 47, 1⟩
def GATE.STAT_CFG_PAST (n : Nat) : Fld := ⟨0x804078 + 0x1000 * n, 46, 1⟩
def GATE.STAT_OPER_EN (n : Nat) : Fld := ⟨0x804078 + 0x1000 * n, 45, 1⟩
def GATE.STAT_OPER_LEN (n : Nat) : Fld := ⟨0x804078 + 0x1000 * n, 35, 10⟩
def GATE.STAT_CURRENT (n : Nat) : Fld := ⟨0x804078 + 0x1000 * n, 26, 9⟩
def GATE.STAT_GATES (n : Nat) : Fld := ⟨0x804078 + 0x1000 * n, 18, 8⟩
def GATE.START_SEC_LO (n : Nat) : Fld := ⟨0x804080 + 0x1000 * n, 30, 18⟩
def GATE.START_NS (n : Nat) : Fld := ⟨0x804080 + 0x1000 * n, 0, 30⟩
def GATE.OPER_CYCLE_CYCLE (n : Nat) : Fld := ⟨0x804088 + 0x1000 * n, 0, 30⟩
def GATE.SEQ_V (n : Nat) : Fld := ⟨0x804100 + 0x1000 * n, 0, 48⟩
def GATE.FRAMES_TC0_V (n : Nat) : Fld := ⟨0x804108 + 0x1000 * n, 0, 48⟩
def GATE.FRAMES_TC1_V (n : Nat) : Fld := ⟨0x804110 + 0x1000 * n, 0, 48⟩
def GATE.FRAMES_TC2_V (n : Nat) : Fld := ⟨0x804118 + 0x1000 * n, 0, 48⟩
def GATE.FRAMES_TC3_V (n : Nat) : Fld := ⟨0x804120 + 0x1000 * n, 0, 48⟩
def GATE.FRAMES_TC4_V (n : Nat) : Fld := ⟨0x804128 + 0x1000 * n, 0, 48⟩
def GATE.FRAMES_TC5_V (n : Nat) : Fld := ⟨0x804130 + 0x1000 * n, 0, 48⟩
def GATE.FRAMES_TC6_V (n : Nat) : Fld := ⟨0x804138 + 0x1000 * n, 0, 48⟩
def GATE.FRAMES_TC7_V (n : Nat) : Fld := ⟨0x804140 + 0x1000 * n, 0, 48⟩
def GATE.LAUNCH_LATE_V (n : Nat) : Fld := ⟨0x804148 + 0x1000 * n, 0, 48⟩
def GATE.WAIT_MAX_V (n : Nat) : Fld := ⟨0x804150 + 0x1000 * n, 0, 48⟩
def GATE.FIT_DEFERRED_V (n : Nat) : Fld := ⟨0x804158 + 0x1000 * n, 0, 48⟩
def GATE.TOO_LONG_V (n : Nat) : Fld := ⟨0x804160 + 0x1000 * n, 0, 48⟩
def GATE.FCS_INVERTED_V (n : Nat) : Fld := ⟨0x804168 + 0x1000 * n, 0, 48⟩

/-! Page SHP (spec 16 R388-R400). -/
def SHP.CFG_TOKENS_ON_CHANGE (n : Nat) : Fld := ⟨0x808040 + 0x1000 * n, 0, 1⟩
def SHP.CLS_RATE_KBPS (n : Nat) (k : Nat) : Fld := ⟨0x808048 + 0x1000 * n + 0x8 * k, 19, 29⟩
def SHP.CLS_BURST (n : Nat) (k : Nat) : Fld := ⟨0x808048 + 0x1000 * n + 0x8 * k, 0, 19⟩
def SHP.SVC_CFG_A_EN (n : Nat) (k : Nat) : Fld := ⟨0x808100 + 0x1000 * n + 0x40 * k, 47, 1⟩
def SHP.SVC_CFG_A_PORT (n : Nat) (k : Nat) : Fld := ⟨0x808100 + 0x1000 * n + 0x40 * k, 46, 1⟩
def SHP.SVC_CFG_B_EN (n : Nat) (k : Nat) : Fld := ⟨0x808100 + 0x1000 * n + 0x40 * k, 45, 1⟩
def SHP.SVC_CFG_B_PORT (n : Nat) (k : Nat) : Fld := ⟨0x808100 + 0x1000 * n + 0x40 * k, 44, 1⟩
def SHP.SVC_CFG_WAKE (n : Nat) (k : Nat) : Fld := ⟨0x808100 + 0x1000 * n + 0x40 * k, 42, 2⟩
def SHP.SVC_CFG_TC (n : Nat) (k : Nat) : Fld := ⟨0x808100 + 0x1000 * n + 0x40 * k, 39, 3⟩
def SHP.SVC_CFG_VLAN_EN (n : Nat) (k : Nat) : Fld := ⟨0x808100 + 0x1000 * n + 0x40 * k, 38, 1⟩
def SHP.SVC_CFG_VID (n : Nat) (k : Nat) : Fld := ⟨0x808100 + 0x1000 * n + 0x40 * k, 26, 12⟩
def SHP.SVC_CFG_DSCP (n : Nat) (k : Nat) : Fld := ⟨0x808100 + 0x1000 * n + 0x40 * k, 20, 6⟩
def SHP.SVC_CFG_SRC_UDP (n : Nat) (k : Nat) : Fld := ⟨0x808100 + 0x1000 * n + 0x40 * k, 0, 16⟩
def SHP.SVC_SHAPE_RATE_KBPS (n : Nat) (k : Nat) : Fld := ⟨0x808108 + 0x1000 * n + 0x40 * k, 19, 29⟩
def SHP.SVC_SHAPE_BURST (n : Nat) (k : Nat) : Fld := ⟨0x808108 + 0x1000 * n + 0x40 * k, 0, 19⟩
def SHP.SVC_DST_A_DST_IP (n : Nat) (k : Nat) : Fld := ⟨0x808110 + 0x1000 * n + 0x40 * k, 16, 32⟩
def SHP.SVC_DST_A_DST_UDP (n : Nat) (k : Nat) : Fld := ⟨0x808110 + 0x1000 * n + 0x40 * k, 0, 16⟩
def SHP.SVC_DST_B_DST_IP (n : Nat) (k : Nat) : Fld := ⟨0x808118 + 0x1000 * n + 0x40 * k, 16, 32⟩
def SHP.SVC_DST_B_DST_UDP (n : Nat) (k : Nat) : Fld := ⟨0x808118 + 0x1000 * n + 0x40 * k, 0, 16⟩
def SHP.SVC_MAC_A_MAC (n : Nat) (k : Nat) : Fld := ⟨0x808120 + 0x1000 * n + 0x40 * k, 0, 48⟩
def SHP.SVC_MAC_B_MAC (n : Nat) (k : Nat) : Fld := ⟨0x808128 + 0x1000 * n + 0x40 * k, 0, 48⟩
def SHP.SVC_STAT_REQ_KBPS (n : Nat) (k : Nat) : Fld := ⟨0x808130 + 0x1000 * n + 0x40 * k, 19, 29⟩
def SHP.SVC_STAT_KIND (n : Nat) (k : Nat) : Fld := ⟨0x808130 + 0x1000 * n + 0x40 * k, 14, 2⟩
def SHP.SVC_STAT_BOUND (n : Nat) (k : Nat) : Fld := ⟨0x808130 + 0x1000 * n + 0x40 * k, 0, 14⟩

/-! Page QUE (spec 16 R388-R412). -/
def QUE.SEL_INDEX (n : Nat) : Fld := ⟨0x820040 + 0x1000 * n, 0, 10⟩
def QUE.CFG_EN (n : Nat) (i : Nat) : Fld := ⟨winKey (0x820048 + 0x1000 * n) i, 47, 1⟩
def QUE.CFG_SERVICE (n : Nat) (i : Nat) : Fld := ⟨winKey (0x820048 + 0x1000 * n) i, 40, 7⟩
def QUE.CFG_ADDR_OFFSET (n : Nat) (i : Nat) : Fld := ⟨winKey (0x820048 + 0x1000 * n) i, 0, 16⟩
def QUE.SHAPE_RATE_KBPS (n : Nat) (i : Nat) : Fld := ⟨winKey (0x820050 + 0x1000 * n) i, 19, 29⟩
def QUE.SHAPE_BURST (n : Nat) (i : Nat) : Fld := ⟨winKey (0x820050 + 0x1000 * n) i, 0, 19⟩
def QUE.STAT_REQ_KBPS (n : Nat) (i : Nat) : Fld := ⟨winKey (0x820058 + 0x1000 * n) i, 19, 29⟩
def QUE.STAT_KIND (n : Nat) (i : Nat) : Fld := ⟨winKey (0x820058 + 0x1000 * n) i, 16, 3⟩
def QUE.STAT_TL_SEEN (n : Nat) (i : Nat) : Fld := ⟨winKey (0x820058 + 0x1000 * n) i, 15, 1⟩
def QUE.STAT_DEPTH (n : Nat) (i : Nat) : Fld := ⟨winKey (0x820058 + 0x1000 * n) i, 0, 14⟩
def QUE.FRAMES_COUNT (n : Nat) (i : Nat) : Fld := ⟨winKey (0x820060 + 0x1000 * n) i, 0, 48⟩
def QUE.LATE_LAUNCH_LATE (n : Nat) (i : Nat) : Fld := ⟨winKey (0x820068 + 0x1000 * n) i, 24, 24⟩
def QUE.LATE_TOO_LONG (n : Nat) (i : Nat) : Fld := ⟨winKey (0x820068 + 0x1000 * n) i, 0, 24⟩

/-! Page HBM (spec 17 R413-R426, 14 R359-R360). -/
def HBM.SR_CFG_EN (n : Nat) : Fld := ⟨0x900040 + 0x1000 * n, 20, 1⟩
def HBM.SR_CFG_IDLE_US (n : Nat) : Fld := ⟨0x900040 + 0x1000 * n, 0, 20⟩
def HBM.REFRESH_URGENT_RUNS (n : Nat) : Fld := ⟨0x900048 + 0x1000 * n, 32, 16⟩
def HBM.REFRESH_MAX_DEBT (n : Nat) : Fld := ⟨0x900048 + 0x1000 * n, 4, 5⟩
def HBM.REFRESH_URGENT (n : Nat) : Fld := ⟨0x900048 + 0x1000 * n, 1, 1⟩
def HBM.REFRESH_HOT (n : Nat) : Fld := ⟨0x900048 + 0x1000 * n, 0, 1⟩
def HBM.SR_STAT_ENTRIES (n : Nat) : Fld := ⟨0x900050 + 0x1000 * n, 32, 16⟩
def HBM.SR_STAT_ABORTS (n : Nat) : Fld := ⟨0x900050 + 0x1000 * n, 16, 16⟩
def HBM.SR_STAT_SR_LATE (n : Nat) : Fld := ⟨0x900050 + 0x1000 * n, 0, 16⟩
def HBM.FWD_FORWARDED (n : Nat) : Fld := ⟨0x900058 + 0x1000 * n, 24, 24⟩
def HBM.FWD_MERGES (n : Nat) : Fld := ⟨0x900058 + 0x1000 * n, 0, 24⟩
def HBM.PC_SEL_PC (n : Nat) : Fld := ⟨0x900060 + 0x1000 * n, 0, 5⟩
def HBM.PC_STAT_WQ_DEPTH (n : Nat) (i : Nat) : Fld := ⟨winKey (0x900068 + 0x1000 * n) i, 41, 7⟩
def HBM.PC_STAT_SR (n : Nat) (i : Nat) : Fld := ⟨winKey (0x900068 + 0x1000 * n) i, 39, 2⟩
def HBM.PC_STAT_MODE (n : Nat) (i : Nat) : Fld := ⟨winKey (0x900068 + 0x1000 * n) i, 36, 3⟩
def HBM.PC_STAT_DEBT (n : Nat) (i : Nat) : Fld := ⟨winKey (0x900068 + 0x1000 * n) i, 31, 5⟩
def HBM.TRAIN_TIME_US (n : Nat) : Fld := ⟨0x900070 + 0x1000 * n, 24, 24⟩
def HBM.TRAIN_REPAIRS (n : Nat) : Fld := ⟨0x900070 + 0x1000 * n, 16, 8⟩
def HBM.TRAIN_FAIL_CH (n : Nat) : Fld := ⟨0x900070 + 0x1000 * n, 2, 4⟩
def HBM.TRAIN_RESULT (n : Nat) : Fld := ⟨0x900070 + 0x1000 * n, 0, 2⟩
def HBM.ECC_CNT_DATA_CORR (n : Nat) : Fld := ⟨0x900100 + 0x1000 * n, 32, 16⟩
def HBM.ECC_CNT_CHECK_CORR (n : Nat) : Fld := ⟨0x900100 + 0x1000 * n, 16, 16⟩
def HBM.ECC_CNT_UNCORR (n : Nat) : Fld := ⟨0x900100 + 0x1000 * n, 0, 16⟩
def HBM.ECC_AUX_ONDIE_CORR (n : Nat) : Fld := ⟨0x900108 + 0x1000 * n, 24, 24⟩
def HBM.ECC_AUX_REREAD_OK (n : Nat) : Fld := ⟨0x900108 + 0x1000 * n, 0, 24⟩
def HBM.ECC_LAST_KIND (n : Nat) : Fld := ⟨0x900110 + 0x1000 * n, 46, 2⟩
def HBM.ECC_LAST_PC (n : Nat) : Fld := ⟨0x900110 + 0x1000 * n, 40, 5⟩
def HBM.ECC_LAST_ADDR (n : Nat) : Fld := ⟨0x900110 + 0x1000 * n, 0, 35⟩

/-! Page GAL (spec 14 R355-R357, 17 R427). -/
def GAL.CONFLICTS_COUNT : Fld := ⟨0x902040, 0, 48⟩
def GAL.SCRUB_PASSES : Fld := ⟨0x902100, 32, 16⟩
def GAL.SCRUB_EN : Fld := ⟨0x902100, 16, 1⟩
def GAL.SCRUB_PERIOD_MS : Fld := ⟨0x902100, 0, 16⟩
def GAL.ECC_CNT_DATA_CORR : Fld := ⟨0x902108, 32, 16⟩
def GAL.ECC_CNT_CHECK_CORR : Fld := ⟨0x902108, 16, 16⟩
def GAL.ECC_CNT_UNCORR : Fld := ⟨0x902108, 0, 16⟩
def GAL.ECC_LAST_KIND : Fld := ⟨0x902110, 46, 2⟩
def GAL.ECC_LAST_SCRUB : Fld := ⟨0x902110, 45, 1⟩
def GAL.ECC_LAST_BIT : Fld := ⟨0x902110, 38, 7⟩
def GAL.ECC_LAST_OFFSET : Fld := ⟨0x902110, 0, 26⟩

/-! Page PDM (spec 18 R432-R433). -/
def PDM.CFG_CLK_EN : Fld := ⟨0xa00040, 16, 4⟩
def PDM.CFG_CLK_RATE : Fld := ⟨0xa00040, 0, 1⟩
def PDM.MIC_HPF (k : Nat) : Fld := ⟨0xa00048 + 0x8 * k, 6, 1⟩
def PDM.MIC_GAIN (k : Nat) : Fld := ⟨0xa00048 + 0x8 * k, 0, 6⟩
def PDM.STAT_ABSENT : Fld := ⟨0xa000c8, 0, 16⟩

/-! Page TDM (spec 18 R434-R438). -/
def TDM.CFG_PLAY (n : Nat) : Fld := ⟨0xa01040 + 0x1000 * n, 16, 13⟩
def TDM.CFG_CLOCK (n : Nat) : Fld := ⟨0xa01040 + 0x1000 * n, 8, 2⟩
def TDM.CFG_SLOTS (n : Nat) : Fld := ⟨0xa01040 + 0x1000 * n, 4, 3⟩
def TDM.CFG_DELAY (n : Nat) : Fld := ⟨0xa01040 + 0x1000 * n, 0, 1⟩
def TDM.MASK_TX_MASK (n : Nat) : Fld := ⟨0xa01048 + 0x1000 * n, 16, 16⟩
def TDM.MASK_RX_MASK (n : Nat) : Fld := ⟨0xa01048 + 0x1000 * n, 0, 16⟩
def TDM.TXMAP_ENTRIES (n : Nat) (k : Nat) : Fld := ⟨0xa01050 + 0x1000 * n + 0x8 * k, 0, 48⟩
def TDM.STAT_SLIP_DROP (n : Nat) : Fld := ⟨0xa01068 + 0x1000 * n, 32, 16⟩
def TDM.STAT_SLIP_REPEAT (n : Nat) : Fld := ⟨0xa01068 + 0x1000 * n, 16, 16⟩
def TDM.STAT_FILL (n : Nat) : Fld := ⟨0xa01068 + 0x1000 * n, 9, 7⟩
def TDM.STAT_STATE (n : Nat) : Fld := ⟨0xa01068 + 0x1000 * n, 0, 3⟩
def TDM.REALIGNS_COUNT (n : Nat) : Fld := ⟨0xa01070 + 0x1000 * n, 0, 48⟩

/-! Page AUDC (spec 18 R429-R447). -/
def AUDC.CFG_RATE : Fld := ⟨0xa05040, 0, 1⟩
def AUDC.WCLK_CFG_RATE : Fld := ⟨0xa05048, 4, 2⟩
def AUDC.WCLK_CFG_ENABLE : Fld := ⟨0xa05048, 0, 1⟩
def AUDC.WCLK_STAT_BAD_PERIODS : Fld := ⟨0xa05050, 32, 16⟩
def AUDC.WCLK_STAT_LOSSES : Fld := ⟨0xa05050, 16, 16⟩
def AUDC.WCLK_STAT_SEEN : Fld := ⟨0xa05050, 4, 4⟩
def AUDC.WCLK_STAT_STATE : Fld := ⟨0xa05050, 0, 2⟩
def AUDC.CH_SEL_INDEX : Fld := ⟨0xa05058, 0, 8⟩
def AUDC.CH_SRC_KIND (i : Nat) : Fld := ⟨winKey (0xa05060) i, 12, 2⟩
def AUDC.CH_SRC_UNIT (i : Nat) : Fld := ⟨winKey (0xa05060) i, 6, 6⟩
def AUDC.CH_SRC_SUB (i : Nat) : Fld := ⟨winKey (0xa05060) i, 0, 6⟩
def AUDC.MISSING_COUNT : Fld := ⟨0xa05068, 0, 48⟩
def AUDC.RX_SEL_FLOW : Fld := ⟨0xa05070, 0, 6⟩
def AUDC.RX_FMT_L24 (i : Nat) : Fld := ⟨winKey (0xa05078) i, 8, 1⟩
def AUDC.RX_FMT_CHANNELS (i : Nat) : Fld := ⟨winKey (0xa05078) i, 0, 7⟩
def AUDC.TX_SEL_FLOW : Fld := ⟨0xa05080, 0, 5⟩
def AUDC.TX_CFG_RUN (i : Nat) : Fld := ⟨winKey (0xa05088) i, 47, 1⟩
def AUDC.TX_CFG_QUEUE (i : Nat) : Fld := ⟨winKey (0xa05088) i, 33, 13⟩
def AUDC.TX_CFG_FIRST (i : Nat) : Fld := ⟨winKey (0xa05088) i, 24, 8⟩
def AUDC.TX_CFG_COUNT (i : Nat) : Fld := ⟨winKey (0xa05088) i, 16, 7⟩
def AUDC.TX_CFG_PTIME_SMP (i : Nat) : Fld := ⟨winKey (0xa05088) i, 0, 8⟩
def AUDC.TX_TIME_DELAY (i : Nat) : Fld := ⟨winKey (0xa05090) i, 0, 13⟩
def AUDC.TX_RTP_PT (i : Nat) : Fld := ⟨winKey (0xa05098) i, 32, 7⟩
def AUDC.TX_RTP_SSRC (i : Nat) : Fld := ⟨winKey (0xa05098) i, 0, 32⟩
def AUDC.TS_SEL_OUTPUT : Fld := ⟨0xa050a0, 0, 8⟩
def AUDC.TS_CFG_FIRST (i : Nat) : Fld := ⟨winKey (0xa050a8) i, 8, 8⟩
def AUDC.TS_CFG_PAIRS (i : Nat) : Fld := ⟨winKey (0xa050a8) i, 0, 3⟩

/-! The common header of the page at base `b` (R109). -/
def PG_IDENT_SUBSYS (b : Nat) : Fld := ⟨b + 0x0, 32, 4⟩
def PG_IDENT_TYPE (b : Nat) : Fld := ⟨b + 0x0, 16, 16⟩
def PG_IDENT_INSTANCE (b : Nat) : Fld := ⟨b + 0x0, 8, 8⟩
def PG_IDENT_VERSION (b : Nat) : Fld := ⟨b + 0x0, 0, 8⟩
def PG_CAPS_INSTANCES (b : Nat) : Fld := ⟨b + 0x8, 40, 8⟩
def PG_CAPS_FEATURES (b : Nat) : Fld := ⟨b + 0x8, 0, 32⟩
def PG_CTRL_USER (b : Nat) : Fld := ⟨b + 0x10, 3, 1⟩
def PG_CTRL_FREEZE (b : Nat) : Fld := ⟨b + 0x10, 2, 1⟩
def PG_CTRL_SOFT_RESET (b : Nat) : Fld := ⟨b + 0x10, 1, 1⟩
def PG_CTRL_ENABLE (b : Nat) : Fld := ⟨b + 0x10, 0, 1⟩
def PG_STAT_STATUS (b : Nat) : Fld := ⟨b + 0x18, 16, 32⟩
def PG_STAT_WR_CODE (b : Nat) : Fld := ⟨b + 0x18, 12, 4⟩
def PG_STAT_WR_OFFSET (b : Nat) : Fld := ⟨b + 0x18, 3, 9⟩
def PG_EVENT_EVENTS (b : Nat) : Fld := ⟨b + 0x20, 0, 16⟩
def PG_EVMASK_MASK (b : Nat) : Fld := ⟨b + 0x28, 0, 16⟩
def PG_EVCLASS_CLASS (b : Nat) : Fld := ⟨b + 0x30, 0, 48⟩
def PG_SHADOW_GEN (b : Nat) : Fld := ⟨b + 0x38, 32, 16⟩
def PG_SHADOW_COMMIT_PT (b : Nat) : Fld := ⟨b + 0x38, 29, 3⟩
def PG_SHADOW_RESULT (b : Nat) : Fld := ⟨b + 0x38, 24, 4⟩
def PG_SHADOW_VIEW (b : Nat) : Fld := ⟨b + 0x38, 3, 1⟩
def PG_SHADOW_DISARM (b : Nat) : Fld := ⟨b + 0x38, 2, 1⟩
def PG_SHADOW_ARM (b : Nat) : Fld := ⟨b + 0x38, 1, 1⟩
def PG_SHADOW_BUSY (b : Nat) : Fld := ⟨b + 0x38, 0, 1⟩

end Sys2Proof.Machine
end

