-- ==== Sys2Proof/Config.lean ====
section
/-!
DEFINITION. Config.lean: the constants the spec fixes for every BPX8120, and the free values: what the spec leaves open.
A free value is an opaque constant without a body; the machine applies it to a counter of State (`State.free`) or to the
operands it depends on, so that nothing can be proved about which value it is.
-/
namespace Sys2Proof

/-- Units of 2^-32 ns in one nanosecond: the resolution of the time counter (R158). -/
def Config.unitsPerNs : Nat := 4294967296

/-- Units of 2^-32 ns in one second of the time counter (R158). -/
def Config.unitsPerSec : Nat := 1000000000 * 4294967296

/-- The nominal increment, 2.5 ns per TIME_CLK cycle (R158). -/
def Config.incrNominal : Nat := 10737418240

/-- TIME_CLK cycles in one microsecond: 400 MHz (R154). -/
def Config.cyclesPerUs : Nat := 400

/-- The staging area's size in bytes, 24 MiB (R66). -/
def Config.stagingBytes : Nat := 25165824

/-- Gallery offset of the 24 MiB staging area: bank groups 3 to 8, 4 MiB each (R66, R427, R428). -/
def Config.stagingBase : Nat := 12582912

/-- Full Span's admission limit in pixel/s: 8 x 7,680 x 4,320 x 120 (R16). -/
def Config.admissionFull : Nat := 31850496000

/-- A byte the spec leaves open. -/
opaque Config.freeByte : Nat → BitVec 8

/-- A word the spec leaves open. -/
opaque Config.freeWord : Nat → BitVec 48

/-- A yes or no the spec leaves open (R36: whether a RESET_N pulse of 100 ns to 1 µs resets the module). -/
opaque Config.freeBool : Nat → Bool

/-- The word at a Gallery offset of a set of rate tables (R309). Set 0 is the one that reset leaves; the cores' firmware fills every other, which
the spec does not give. -/
opaque Config.rateWord : Nat → Nat → Nat

/-- The modelled bits of a stripe (model_bits of R303): by the words of the tables, the output, the summary's SUM_ACT and the QP. -/
opaque Config.modelBits : (Nat → Nat) → Nat → Nat → Nat → Nat

/-- The QP at which the model is evaluated (qp_ref of R303), which the spec does not give. -/
opaque Config.qpRef : Nat

/-- The QP whose modelled bits for a stripe summary meet a target (qp_for_bits of R303): by tables, output, SUM_ACT and target. -/
opaque Config.qpForBits : (Nat → Nat) → Nat → Nat → Nat → Nat

/-- The lambda table's entry of a QP (R303, R309). -/
opaque Config.lambdaAt : (Nat → Nat) → Nat → Nat

/-- The bit map's QP offset of a 32 x 32 block by row and column, from -6 to +6 where it is used (R309). -/
opaque Config.bitMap : (Nat → Nat) → Nat → Nat → Int

/-- The bytes in which a codec's standard writes the syntax elements of a NAL unit or SEI message (H.266 or H.265, named by R258): whether
HEVC, the NAL unit type, and the elements by name. The spec fixes the elements (R261 to R272), the standards their binary form, which this
model does not hold. -/
opaque Config.syntaxBytes : Bool → Nat → List (String × Int) → List (BitVec 8)

/-- The data bytes of a slice as the codec's entropy coding makes them of its CTUs' coding units (H.266 or H.265): whether HEVC, the CTUs by
their elements, and the byte's place. -/
opaque Config.sliceData : Bool → List (List Nat) → Nat → BitVec 8

/-- Which 32 x 32 block of a 64 x 64 quantization group gives its bit map offset (R303 names no block of the four); modulo 4 where it is used. -/
opaque Config.groupBlock : Nat

/-- What a decoder reconstructs of a slice (R269): of its NAL unit, and of the stripes of each reference. -/
opaque Config.reconstruct : List (BitVec 8) → List (List (BitVec 8)) → List (BitVec 8)

/-- An AMVP predictor in whole luma samples (R279), which the codec's standard derives: by output, grid point, stripe, block, reference,
predictor, and the coding unit's place and size. -/
opaque Config.amvp : List Nat → Option (Int × Int)

/-- A byte of a codestream header or slice header that ISO/IEC 21122-1 lays out (R332, R334): by the parameters' names and values, and its place. -/
opaque Config.jxsByte : List (String × Int) → Nat → BitVec 8

/-- The level and sublevel of ISO/IEC 21122-2 that a region's width, height, picture rate and bits per pixel x 16 need (R332). -/
opaque Config.jxsLevel : Nat → Nat → Nat → Nat → Int

/-- The header bytes of a slot's JPEG XS precinct layout, at most 160 (R334), and at least 49 with every segment there: bounded where it is used. -/
opaque Config.hdrBytes : Nat → Nat

/-- The AES3 channel status bit C at a position of the 192-bit block: professional linear PCM at 48 kHz, whose bits that standard gives (R444). -/
opaque Config.channelStatus : Nat → Bool

/-- A microphone's sample after the 10 Hz high-pass filter, whose design R432 does not give: by the microphone, the sample index and the sample
before it. -/
opaque Config.highPassed : Nat → Nat → Int → Int

/-- A sample with a microphone's gain, before saturation: by the gain in steps of 0.5 dB and the sample (R432 states no rounding). -/
opaque Config.gained : Nat → Int → Int

/-- Whether a 2 x 2 mean with a remainder rounds up (R240 does not state the rounding): by the sum. -/
opaque Config.meanRoundsUp : Nat → Bool

/-- The bits that PAF's conversion stages carry between them; at least 16 where it is used (R243). -/
opaque Config.carriedBits : Nat

/-- Whether a value between two codes of PAF's conversion takes the upper one (R243 states no rounding between the stages). -/
opaque Config.carriedUp : Rat → Bool

/-- The four low bits that stand for the ones the table store drops, by the twelve it keeps (R246). -/
opaque Config.tableLow : Nat → Nat

/-- The chroma of pixel i of a 4:2:2 row upsampled horizontally, in carried codes (R243 step 1 names no filter). -/
opaque Config.chromaUp : List Nat → Nat → Nat

/-- Chroma sample i of a 4:4:4 row reduced to 4:2:2, in carried codes (R243 step 3 names no filter). -/
opaque Config.chromaDown : List Nat → Nat → Nat

/-- How a sum of 1,024 is stored in the ten bits of a quarter-resolution sample (R234 does not say). -/
opaque Config.quarterTop : Nat

/-- Concourse cycles of a span of `n` TIME_CLK cycles from a cycle on in which a master's request stalls at its port (R449): at most two for each
TIME_CLK cycle where it is used. -/
opaque Config.stalls : Nat → Nat → Nat → Nat

/-- Transactions that a master completes in a span of `n` TIME_CLK cycles from a cycle on (R449); at most two for each where it is used. -/
opaque Config.transactions : Nat → Nat → Nat → Nat

/-- The pairs of requests of a span of TIME_CLK cycles that met at a Gallery bank in one FAB_CLK cycle (R427), each as the cycles since which port 0's
and port 1's request waited; at most two pairs for each TIME_CLK cycle and bank where they are used. -/
opaque Config.bankPairs : Nat → Nat → List (Nat × Nat)

/-- Beats that a running scan feeds in a span of TIME_CLK cycles from a cycle on (R385); at most two for each cycle where it is used. -/
opaque Config.scanBeats : Nat → Nat → Nat

/-- Transactions that a master has outstanding at a cycle, by cycle and master (R131); at most 64 where it is used. -/
opaque Config.outstanding : Nat → Nat → Nat

/-- Where the PCIe link stands while it is not in L0 (R193), by the cycle: the training's course is not stated. -/
opaque Config.training : Nat → Nat

/-- The depths and sizes of VVC's binary and ternary splits, which R262 allows without a limit (log entry 103); each at most what the standard allows
where it is used. -/
opaque Config.splitLimit : Nat → Nat

/-- Whether a shaper's tokens between two steps of 2^-24 B are kept as the upper one, by instance and TIME_CLK cycle: R395 gives the step and no
direction (log entry 65). -/
opaque Config.tokensUp : Nat → Nat → Bool

end Sys2Proof
end

