-- ==== Sys2Proof/Machine/State.lean ====
section
/-!
DEFINITION. Machine/State.lean: everything the spec gives the BPX8120, as plain data.
Registers live in one store keyed by BAR0 address (`regs`); an unlisted key reads its reset value. State the registers do not
show (runs of samples, tasks in engines, packets in queues, timers) stands in records of its own. A family of like objects is
a list of (number, record) pairs in canonical form: numbers rising, no entry equal to the record of an idle object.
-/
namespace Sys2Proof.Machine

/-- Sparse data by number: rising keys, no entry equal to what an unlisted key reads as. -/
abbrev Store (α : Type) := List (Nat × α)

/-- The READY values of R54 and R90. -/
inductive Ready
  | cold | waitImage | verify | init | ready | degraded | quarantine | halted
deriving DecidableEq, Repr

/-- The CODE values of R91. -/
inductive Code
  | ok | notReady | decodeError | permission | frozen | busy | badDescriptor | zeroLength | stale
deriving DecidableEq, Repr

/-- The low-speed lands with a level of their own (R36, R38, R44, R47, R184). `ppsOut` and `mclkOut` are what their circuits drive, whether
or not the land shows it (R49); `ppsAt` is the cycle at which PPS_OUT last rose. -/
structure Pins where
  resetN   : Bool := false
  perstN   : Bool := false
  tripN    : Bool := true
  ppsOut   : Bool := false
  ppsAt    : Nat := 0
  mclkOut  : Bool := false
deriving DecidableEq, Repr

/-- One comparison of both rails: MAIN mV, MAIN 0.1 A, AUX mV, AUX 0.01 A (R37). -/
structure RailSample where
  mainMv : Nat
  mainDa : Nat
  auxMv  : Nat
  auxCa  : Nat
deriving DecidableEq, Repr

/-- Rails, sequencing and the thermal runs of the keeper (R32 to R46). Instants are in TIME_CLK cycles of `State.cyc`. `auxOut`: VIN_AUX lies
above 0.80 V and outside its tolerance; `mainOut`: VIN_MAIN left its tolerance and no sample has shown it back (R35). `hotRun` and `tripRun`
count the die's samples, `hotStack` and `tripStack` the stacks' (R40, R43). The temperatures of the latest sample stand here as well, since
KPR.THERM_STAT shows zero while RESET_N is low. -/
structure Power where
  aux       : Bool := false
  auxOut    : Bool := false
  auxAt     : Nat := 0
  main      : Bool := false
  mainOut   : Bool := false
  mainAt    : Nat := 0
  core      : Bool := false
  badMain   : Nat := 0
  badAux    : Nat := 0
  rails     : List RailSample := []
  hotRun    : Nat := 0
  hotStack  : Nat := 0
  coolRun   : Nat := 0
  tripRun   : Nat := 0
  tripStack : Nat := 0
  junction  : Int := 0
  site      : Nat := 0
  stack0    : Int := 0
  stack1    : Int := 0
  coldAt    : Option Nat := none
  coldHeld  : Bool := false
deriving DecidableEq, Repr

/-- One 32-byte fault record (R462, R463). -/
structure FaultRec where
  seq   : Nat
  kind  : Nat
  cls   : Nat
  ready : Nat
  sec   : Nat
  ns    : Nat
  a     : BitVec 48
  b     : BitVec 48
deriving DecidableEq, Repr

/-- A value latched by a read, one per path (R161, R382, R463). -/
structure PathLatch where
  p : Option (List (BitVec 48)) := none
  m : Option (List (BitVec 48)) := none
  r : Option (List (BitVec 48)) := none
  c : Option (List (BitVec 48)) := none
deriving DecidableEq, Repr

/-- The keeper's own state outside its registers (R161, R460 to R466). -/
structure Keeper where
  flog     : List FaultRec := []
  seq      : Nat := 0
  flogSnap : PathLatch := {}
  timeSnap : PathLatch := {}
  progress : Store Nat := []
deriving DecidableEq, Repr

/-- What is known of a verified image (R60 to R65, R88). A section is (TYPE, OFFSET, LENGTH, LOAD). -/
structure Image where
  fw       : Nat
  level    : Nat
  digest   : List Byte
  sections : List (Nat × Nat × Nat × Nat)
deriving DecidableEq, Repr

/-- Bring-up state outside BOOT's registers (R66 to R73). -/
structure Boot where
  latched        : Nat := 0
  fromQuarantine : Bool := false
  image          : Option Image := none
deriving DecidableEq, Repr

/-- A fuse programming in progress: the OTP bits to blow, in order, and when it began (R82 to R84). -/
structure FuseJob where
  bits  : List Nat
  start : Nat
deriving DecidableEq, Repr

/-- What an attestation GO latched (R87, R88). -/
structure AttJob where
  nonce    : List Byte
  sec      : Nat
  ns       : Nat
  measured : List Byte
  count    : Nat
deriving DecidableEq, Repr

/-- The security engine's state outside SEC's registers (R82 to R89). -/
structure Sec where
  fuse     : Option FuseJob := none
  job      : Option AttJob := none
  report   : List Byte := []
  measured : List Byte := []
  count    : Nat := 0
deriving DecidableEq, Repr

/-- A command being executed by ring `ring`: its index, its eight words and its CODE so far (R118, R119). -/
structure RingCmd where
  ring  : Nat
  index : Nat
  words : List (BitVec 64)
  code  : Code
deriving DecidableEq, Repr

/-- Rings, heartbeats and the endpoint (R98, R117 to R125, R192). -/
structure Hif where
  linkUp   : Bool := false
  lanesOn  : Bool := false
  d3hot    : Bool := false
  phase    : List Nat := []
  cur      : Option RingCmd := none
  lastRing : Nat := 15
  hbSeq    : Nat := 0
  hbMissed : Nat := 0
  hbNext   : Option Nat := none
deriving DecidableEq, Repr

/-- What the host programs in the endpoint's configuration space (R93, R94): memory decoding, bus mastering, the bases assigned to the three
BARs, and the codes of the maximum payload (128 B x 2^code) and read request. -/
structure PciConfig where
  memory    : Bool := false
  master    : Bool := false
  bar0      : BitVec 64 := 0
  bar2      : BitVec 64 := 0
  bar4      : BitVec 64 := 0
  payload   : Nat := 0
  readReq   : Nat := 2
deriving DecidableEq, Repr

/-- The last reply of each kind: a register reply, the Uasyn bytes, a bulk read of BAR2 or BAR4. -/
structure Replies where
  rsw   : Option Nat := none
  data  : BitVec 48 := 0
  uasyn : List Byte := []
  bulk  : List Byte := []
  ep    : List Bool := []
  codes : Store Nat := []
  lastWrite : Option (BitVec 4 × BitVec 24 × BitVec 48 × List Byte) := none
deriving DecidableEq, Repr

/-- A Concourse master's drain (R146, R147, R152): under a reset or a freeze, of a retired bay's own IDs alone (R128), released or frozen at
its end, with the transactions that were outstanding when it began. -/
structure Master where
  draining : Bool := false
  byReset  : Bool := false
  bayOnly  : Bool := false
  release  : Bool := false
  freezeAt : Bool := false
  outstanding : Nat := 0
deriving DecidableEq, Repr

/-- A clock monitor's runs: consecutive periods out of tolerance, and the time in tolerance since the last bad one, in ps (R180). -/
structure Monitor where
  bad  : Nat := 0
  good : Nat := 0
deriving DecidableEq, Repr

/-- A neighbour on a port under IEEE 802.1AS (R165): t3 and t4 of the last Pdelay exchange, the neighbour rate ratio, and asCapable. -/
structure Neighbour where
  t3      : Int := 0
  t4      : Int := 0
  ratio   : Rat := 1
  capable : Bool := false
deriving DecidableEq, Repr

/-- A foreign master (R164, R165): the port it is heard on, its latest Announce and the cycle of it. -/
structure Foreign where
  port : Nat
  data : Announce
  at0  : Nat
deriving DecidableEq, Repr

/-- The PTP servo, the path delay filter and the best-master data (R165 to R177). Samples are in ns; instants in TIME_CLK cycles. `stepCross`:
the last host step moved the counter forward across a second. -/
structure Servo where
  integ       : Rat := 0
  delay       : Option Rat := none
  last8       : List Rat := []
  holdEnd     : Option Nat := none
  holdSamples : List Rat := []
  lockRun     : Nat := 0
  farRun      : Nat := 0
  lastSample  : Nat := 0
  stepAt      : Option Nat := none
  stepCross   : Bool := false
  masters     : List Foreign := []
  gm          : Option (Nat × Announce) := none
  neighbours  : Store Neighbour := []
  offsetSnap  : PathLatch := {}
deriving DecidableEq, Repr

/-- The root and keeper PLLs and the media clock output as it is applied (R154, R157, R184): the clock that drives the land, and the counter
instant from which it does after a change. -/
structure Clocks where
  keeperPll : Bool := false
  rootPll   : Bool := false
  mclkSel   : Nat := 0
  mclkFrom  : Nat := 0
deriving DecidableEq, Repr

/-- A frame that a port sent while a near-end loop feeds its receiver (R199): its bytes with FCS, tags, addresses and UDP port, and whether the
MAC has received it. -/
structure Echo where
  size   : Nat
  tags   : Nat
  dstMac : Nat
  srcIp  : Nat
  dstIp  : Nat
  udp    : Nat
  heard  : Bool := false
deriving DecidableEq, Repr

/-- A port's state outside LANEn's registers: whether its quad has been calibrated since it left OFF (R189); the idle freeze of R197 with the
cycle of the last payload block and the cycle at which a frozen port resumes; a speed change waiting for the PLL (R192, R202); the cycle at
which its state was entered (R189, R190); its own frames on their way back through a near-end loop (R199); the timestamps of its last received
frame and of its last sent PTP event message, in units of 0.25 ns (R163). -/
structure LanePort where
  calibrated : Bool := false
  idleFrozen : Bool := false
  idleFrom   : Nat := 0
  resumeAt   : Option Nat := none
  relock     : Bool := false
  enteredAt  : Nat := 0
  echoes     : List Echo := []
  rxStamp    : Nat := 0
  txStamp    : Nat := 0
deriving DecidableEq, Repr

/-- A line being assembled in the merge area (R219): the cycle of its first packet and the pixel groups received, by index. -/
structure OpenLine where
  firstAt : Nat := 0
  groups  : Store (List Byte) := []
deriving DecidableEq, Repr

/-- An extended sequence number of the picture being received: which legs delivered it, the timestamp of the first (R163), whether its data
was kept before its lines closed, and the cycle in which it was (R218, R220, R233). Of an ancillary packet: where its ANC data packets stand among
its picture's, and how many they are. -/
structure SeqSeen where
  legA : Bool := false
  legB : Bool := false
  at0  : Nat := 0
  kept : Bool := false
  keptAt : Nat := 0
  from0  : Nat := 0
  many   : Nat := 0
deriving DecidableEq, Repr

/-- A picture of a substream from its first packet (or its synthesis) until its last stripe is announced and its last window has closed (R216 to
R227). Lines are `closed` once complete or concealed; stripes are `shut` once their window closed. Sequence numbers stand in `seqs` by their
distance from the first one received, `seq0`, plus 2^31, modulo 2^32. `arrivals`: by leg and stripe, the counter at the last packet
(R221). -/
structure Picture where
  grid      : Nat
  number    : Nat
  rtp       : Nat
  buffer    : Nat
  synth     : Bool
  ctu32     : Bool
  fresh     : Bool := false
  prevCtu   : Bool := false
  seq0      : Nat := 0
  seqs      : Store SeqSeen := []
  arrivals  : Store (Option Nat) := []
  lines     : Store OpenLine := []
  closed    : List Nat := []
  concealed : List Nat := []
  shut      : List Nat := []
  announced : Nat := 0
  misfit    : Bool := false
  disc      : Bool := false
  viol      : Bool := false
deriving DecidableEq, Repr

/-- A substream's reception (R210, R217, R226 to R231). Grid points are counted from the epoch. `prev` is the buffer and grid point of the
latest received picture that has left it, `lastCtu` the CTU size of the latest picture begun. -/
structure Substream where
  acquired  : Bool := false
  expected  : Option Nat := none
  nextNum   : Nat := 0
  pics      : List Picture := []
  prev      : Option (Nat × Nat) := none
  lastCtu   : Bool := false
  repeats   : Nat := 0
  misfitRun : Nat := 0
  stepped   : Nat := 0
deriving DecidableEq, Repr

/-- What PAF makes of a picture for the mezzanine copy or the proxy source (R243 to R249): PAFn.MZE_COPY or PAFn.PROXY, with the conversion
table that serves it, the table's swap count and the nodes that could not be read. An empty table is the identity. -/
structure CopySet where
  on     : Bool := false
  lut    : Bool := false
  half   : Bool := false
  color  : Nat := 0
  full   : Bool := false
  deep   : Bool := false
  sub    : Nat := 0
  table  : List Nat := []
  gen    : Nat := 0
  bad    : List Nat := []
  tcs    : Nat := 0
deriving DecidableEq, Repr

/-- The settings that serve the pictures from a grid point on (R244, R249). -/
structure PafSet where
  grid  : Nat
  mezz  : CopySet
  proxy : CopySet
deriving DecidableEq, Repr

/-- A channel slot's own record: the counter at its start, its next picture boundary, FORMAT_LOST, and a stop that waits for
the boundary (R216, R228 to R232). A slot started while a Span change is pending `waits` for its boundary (R23). `sets` are PAF's settings
by picture, newest first, as far back as a picture still in work (R249). -/
structure Slot where
  startCtr : Nat := 0
  waits    : Bool := false
  boundary : Option Nat := none
  lost     : Bool := false
  stopping : Bool := false
  sets     : List PafSet := []
deriving DecidableEq, Repr

/-- A leg's activity: the cycle of its last packet or enable, and whether its silence was reported (R211). -/
structure LegRun where
  lastAt   : Nat := 0
  reported : Bool := false
deriving DecidableEq, Repr

/-- A flow context's runs: its legs; the highest sequence number of its last picture and, until the next one ends, that picture's sequence
numbers, whose copies may still be in flight (of audio and ancillary data: the last one received,
and the last on each leg, with the copies received, by timestamp and number); the duplicate pairs of the interval with the sum of their
arrival differences, leg B less leg A, in units of 0.25 ns (R211, R218, R220). -/
structure Flow where
  legA    : LegRun := {}
  legB    : LegRun := {}
  lastSeq : Option Nat := none
  tail    : Store SeqSeen := []
  tailRtp : Nat := 0
  tailSeq0 : Nat := 0
  tailFrom : Nat := 0
  lastA   : Option Nat := none
  lastB   : Option Nat := none
  seen    : Store SeqSeen := []
  skewSum : Int := 0
  pairs   : Nat := 0
  marginMin : Option Int := none
deriving DecidableEq, Repr

/-- An announcement of a stripe (R223), with its grid point, the CTU size of the picture before (`prevCtu`), the cycle since which it has
been held (R224), and the counter units by which host steps have moved its instants since (R290). -/
structure Ann where
  slot      : Nat
  sub       : Nat
  picture   : Nat
  stripe    : Nat
  grid      : Nat
  tS        : Nat
  buffer    : Nat
  prevBuf   : Option Nat
  ctu32     : Bool
  prevCtu   : Bool := false
  repeat_   : Bool
  concealed : Bool
  stalled   : Bool
  lines     : Nat
  conc      : List Nat := []
  disc      : Bool := false
  madeAt    : Nat
  shift     : Int := 0
deriving DecidableEq, Repr

/-- The counts of one picture of a channel slot, from its first packet to its latch (R455, R456). `quant` are the sum of the QPs and the number of the
quantization groups that carry residual. -/
structure PicStats where
  picture   : Nat := 0
  sel       : Nat := 0
  selRan    : Bool := false
  lines     : Nat := 0
  repeats   : Nat := 0
  stalled   : Nat := 0
  passConc  : Nat := 0
  lost      : Bool := false
  floored   : Nat := 0
  synths    : Nat := 0
  redisp    : Nat := 0
  residue   : Nat := 0
  suspect   : Nat := 0
  stale     : Nat := 0
  disc      : Nat := 0
  bits      : Nat := 0
  quant     : Nat × Nat := (0, 0)
  treads    : Store Nat := []
  stripes   : Store (Nat × Nat) := []
  subsDone  : List Nat := []
  sealed    : List Nat := []
  begun     : Bool := false
deriving DecidableEq, Repr

/-- A Span change and the Span the host last set (R18 to R23). `boundary` is the instant found, in units of 2^-32 ns. `edges` are the latest
changes of ENG_CLK, newest first, each as its cycle and the frequency before it (R21). -/
structure SpanRun where
  pending  : Bool := false
  boundary : Option Nat := none
  target   : Nat := 0
  ctu32    : Bool := false
  thermal  : Bool := false
  host     : Nat := 0
  edges    : List (Nat × Nat) := []
deriving DecidableEq, Repr

/-- The step of a stripe that a Dispatcher slot holds (R316). -/
inductive TaskKind
  | encode | proxy | mezz | assemble | packet
deriving DecidableEq, Repr

/-- A task's state (R317): READY at a level since a cycle, in order of arrival there; RUNNING on an engine since a cycle. -/
inductive TaskState
  | waiting
  | ready (level since order : Nat)
  | running (engine since : Nat)
deriving DecidableEq, Repr

/-- A Dispatcher slot: one stripe of one output, its announcement and its current step (R316, R318). `stripe` is the stripe in
the output's own numbering. `dead` and `launch` are the stripe's deadline and launch as TIME_CLK cycles from the announcement
on (R289, R290); `launchAt` is the launch instant in counter units, which a host step moves (R290, R394). `spoilt` are the (region, slice) pairs of a
MEZZ task whose source could not be trusted (R362). `lead` is the time by which a MEZZ task's limit lies ahead of its launch, in cycles (R327,
R338). `place` orders the tasks of a level: the cycle of entry, moved tasks first, and then the keys of R322. A `packed` task's
PACKET step has ended and waits for earlier stripes to be handed over (R392). -/
structure Task where
  kind     : TaskKind
  st       : TaskState
  out      : Nat
  stripe   : Nat
  ann      : Ann
  redisp   : Bool := false
  dead     : Nat := 0
  launch   : Nat := 0
  launchAt : Nat := 0
  floored  : Bool := false
  packed   : Bool := false
  code     : List Byte := []
  spoilt   : List (Nat × Nat) := []
  lead     : Nat := 0
  place    : List Nat := []
deriving DecidableEq, Repr

/-- A PAF pass, waiting for a pipe or in one since a cycle, with its PAF limit as a cycle (R235, R236). -/
structure Pass where
  ann   : Ann
  start : Option Nat
  limit : Nat
  pipe  : Nat := 0
  bad   : Bool := false
  absent : Bool := false
deriving DecidableEq, Repr

/-- A chain tag: one picture of one output and its bitmaps, as the stripes whose bit is set (R319). `src` are the source stripes of a
proxy picture whose passes have ended. `conc` are concealed source lines, `lost` the lines of a mezzanine copy that a concealed pass replaced
(R237, R330); `spoilt`: a pass converted the copy with table nodes that could not be read (R358). -/
structure Tag where
  out     : Nat
  grid    : Nat
  stripes : Nat
  pass    : List Nat := []
  enc     : List Nat := []
  asm     : List Nat := []
  src     : List Nat := []
  conc    : List Nat := []
  lost    : List Nat := []
  spoilt  : Bool := false
deriving DecidableEq, Repr

/-- A coded picture of an output: its place in its coded video sequence (R268, R281), its alive count, the flags its seal will
carry as bits of R376, its suspect CTUs as (stripe, CTU) (R270, R314), and the running length and CRC of its payload (R375).
`index` counts from the opening picture of the sequence; `sei` is the host payload it carries (R285); `first` tells the output's first picture
(R275); `recon` are the reconstructed stripes, which the bays and floor paths write to HBM and later pictures predict from (R251, R269, R313). -/
structure CodedPic where
  grid     : Nat
  number   : Nat
  ctu32    : Bool
  index    : Nat
  alive    : Nat
  isRepeat : Bool := false
  flags    : Nat := 0
  suspects : List (Nat × Nat) := []
  bands    : List (Nat × Nat) := []
  map      : List Nat := []
  length   : Nat := 0
  crc      : Nat := 0xFFFFFFFF
  sei      : List Byte := []
  first    : Bool := false
  recon    : Store (List Byte) := []
  share    : Option Nat := none
deriving DecidableEq, Repr

/-- A stripe of an output from its creation to its launch, as the bucket sees it (R300, R302): its launch in counter units, its cap
while it codes, its size in bits once complete. -/
structure StripeRate where
  grid   : Nat
  stripe : Nat
  launch : Nat
  cap    : Option Nat := none
  size   : Option Nat := none
deriving DecidableEq, Repr

/-- A running output: its pictures, newest first; the next picture's place; counters that continue across Spans (R369, R378); its
bucket as it stood at the latest launch (R300); its pool share (R307); the host payloads of R285; of a mezzanine output, the region maps that
its latest swaps replaced, newest first, each with the grid point of the boundary (R343). `reqCtu` is the CTU size at its start, of which its REQ is
computed (R409). -/
structure OutRun where
  pics    : List CodedPic := []
  fresh   : Bool := true
  index   : Nat := 0
  alive   : Nat := 0
  seq     : Nat := 0
  fill    : Rat := 0
  last    : Option Nat := none
  peak    : Nat := 0
  rates   : List StripeRate := []
  share   : Option Nat := none
  sei     : List Byte := []
  seiNext : Option (List Byte) := none
  cont    : Store Nat := []
  pcrDisc : Bool := false
  bandsNext : List (Nat × Nat) := []
  mapsBefore : List (Nat × List Nat) := []
  reqCtu  : Bool := false
deriving DecidableEq, Repr

/-- A set of a slot's rate tables (R309): which set it is, and the Gallery offsets of its words that read as at reset since they could not be
read (R362). -/
structure RateSet where
  set : Nat := 0
  bad : List Nat := []
deriving DecidableEq, Repr

/-- A bay with a task (R250 to R256, R293 to R303): the Dispatcher slot, when it took it, the landings passed, the treads returned, the CTUs
coded and the stripe's bits so far, the cap and target, whether R298 (`ended`) or R256 (`sized`) ended the stripe (every CTU from there on is
coded under the T7 rules), whether a cause of R299 was met, whether a landing raised LATE_RISK, the CTU under replay, the cycle of its
mismatch and whether a landing was passed while that replay waited (R350), the CTUs marked suspect, and the cycles the CTUs coded may have
taken at most (R255). Start work loads the coded samples of the stripe, plane by plane and row by row (R259), and the vectors of its blocks,
of the row above and of the co-located blocks of the picture before (R242, R251); `seeds` are those of the blocks of the segment in work,
`refine` their refinement (R279). `windows` is what it prefills of the references: their stripes within the reach of R257. `qps` are the QPs of
the quantization groups of the segment, `lambda` the table entry of the stripe's QP (R303). `copied` holds while every CTU is the skip CTU of
R276, `spoilt` are the CTUs whose source could not be trusted (R362). `extra` are the cycles that replays may have taken (R350). `lost`: the
fault that retired the bay fell in this cycle, and the stripe is lost unless it completes in it (R353). `quant` are the sum of the QPs and the
number of its quantization groups with residual (R455). -/
structure BayRun where
  task     : Nat
  start    : Nat
  landings : Nat := 0
  treads   : List Nat := []
  ctus     : Nat := 0
  bits     : Nat := 0
  budget   : Nat := 0
  ended    : Bool := false
  sized    : Bool := false
  source   : List (List (List Nat)) := []
  own      : List (List (List (Int × Int))) := []
  above    : List (List (Int × Int)) := []
  before   : List (List (List (Int × Int))) := []
  seeds    : List (List (Int × Int)) := []
  refine   : Nat := 0
  cap      : Nat := 0
  target   : Nat := 0
  qp       : Nat := 0
  qps      : List Nat := []
  lambda   : Nat := 0
  forced   : Bool := false
  risk     : Bool := false
  replay   : Option (Nat × Nat) := none
  replayAt : Nat := 0
  held     : Bool := false
  suspects : List Nat := []
  windows  : List (List Byte) := []
  copied   : Bool := true
  spoilt   : List Nat := []
  extra    : Nat := 0
  lost     : Bool := false
  quant    : Nat × Nat := (0, 0)
deriving DecidableEq, Repr

/-- What is kept of a bay or an MZE engine between tasks: the cycles at which its last faults that count toward retirement fell
(R353, R354), newest first; the cycle in which it last completed a task; of an MZE engine, whether the fault that retired it fell in this cycle
while it has a task. -/
structure EngineLog where
  faults : List Nat := []
  doneAt : Option Nat := none
  lost   : Bool := false
deriving DecidableEq, Repr

/-- A floor path at work: its Dispatcher slot, when it took it, the lockstep repeats so far (R313, R315, R351). -/
structure FloorRun where
  task    : Nat
  start   : Nat
  repeats : Nat := 0
deriving DecidableEq, Repr

/-- A region of a mezzanine output: its RTP sequence number, and the running length, CRC and flags of its codestream (R335, R375). -/
structure RegionRun where
  seq    : Nat := 0
  length : Nat := 0
  crc    : Nat := 0xFFFFFFFF
  flags  : Nat := 0
deriving DecidableEq, Repr

/-- A copy of a packet on one path: held, released, or gone (sent or discarded) (R391, R408). -/
inductive CopyState
  | held | released | gone
deriving DecidableEq, Repr

/-- A packet in a queue: its launch in counter units, none for a frame that is released on entry; the bytes after its UDP header (of a
system queue's frame: the whole frame before its FCS); its copies; the cycle of its release; whether a copy's FIT_DEFERRED was counted;
a copy's gate wait once it is known, in counter units (R407); whether its FCS will be inverted (R362); whether it lies in the spill
region (R393). `rate` names the output, grid point and stripe whose bits launch with it, `sealOf` the output, region and bytes of the
seal it carries. -/
structure Pkt where
  launch   : Option Nat
  data     : List Byte
  a        : CopyState := .held
  b        : CopyState := .held
  freeAt   : Nat := 0
  deferA   : Bool := false
  deferB   : Bool := false
  waitA    : Option Nat := none
  waitB    : Option Nat := none
  bad      : Bool := false
  spilled  : Bool := false
  rate     : Option (Nat × Nat × Nat) := none
  sealOf   : Option (Nat × Nat × List Byte) := none
deriving DecidableEq, Repr

/-- A token bucket instance: its tokens in bytes as of a TIME_CLK cycle (R395). -/
structure Bucket where
  tokens : Rat := 0
  at0    : Nat := 0
deriving DecidableEq, Repr

/-- A service's start tags, one per path (R400), and whether WAKE AUTO resolved to PACED when its first queue was bound (R398). -/
structure SvcRun where
  tagA : Rat := 0
  tagB : Rat := 0
  paced : Bool := false
deriving DecidableEq, Repr

/-- A gate list: entries as (gates, duration in ns), cycle in ns, start in counter units (R401). -/
structure GateList where
  entries : List (Nat × Nat)
  cycle   : Nat
  base    : Nat
  start   : Nat
deriving DecidableEq, Repr

/-- A port's egress: the end of the frame on the wire in ns of elapsed time, the virtual time and the last PACED service of each
class (R400), its gate lists (R401 to R404) and the last frame started: its queue, its wire bytes, its bytes after UDP and whether
its FCS is inverted, and all its bytes before the FCS (R390). `since` is the instant from which the schedule in force runs, a start, a removal or
a host step (R407), `lastStart` the start of the latest list that started (GATEn.START). -/
structure PortTx where
  busyTo  : Rat := 0
  v       : Store Rat := []
  lastSvc : Store Nat := []
  oper    : Option GateList := none
  next    : Option GateList := none
  sent    : Option (Nat × Nat × List Byte × Bool) := none
  frame   : List Byte := []
  frames  : Nat := 0
  since   : Nat := 0
  lastStart : Nat := 0
deriving DecidableEq, Repr

/-- An entry of a pseudo-channel's write queue: its beat, the mask of enabled bytes and the 32 bytes (R421). -/
structure WqEntry where
  beat : Nat
  mask : Nat
  data : List Byte
deriving DecidableEq, Repr

/-- A pseudo-channel: its debt, whether it is in URGENT or PAYBACK, the cycle its interval began, the cycle it was last busy and the IDLE_US in
force then (R419), its self-refresh state as PC_STAT.SR codes it, and its write queue (R415 to R423). `freeAt` is the earliest cycle at which the
next refresh can begin. -/
structure Pc where
  debt    : Nat := 0
  urgent  : Bool := false
  payback : Bool := false
  since   : Nat := 0
  busyAt  : Nat := 0
  wait    : Nat := 0x3E8
  sr      : Nat := 0
  freeAt  : Nat := 0
  wq      : List WqEntry := []
deriving DecidableEq, Repr
/-- A check-value unit (R380 to R382): its running register and bytes fed, and the snapshots of VALUE [63:32] and BYTES by path. -/
structure ChkUnit where
  value : Nat := 0xFFFFFFFF
  bytes : Nat := 0
  snap  : PathLatch := {}
deriving DecidableEq, Repr

/-- A memory scan as GO latched it (R384), since cycle `at0`: the bytes fed so far, and the poisoned beats or uncorrectable words among them. -/
structure ScanRun where
  unit : Nat
  addr : Nat
  len  : Nat
  at0  : Nat := 0
  fed  : Nat := 0
  bad  : Nat := 0
deriving DecidableEq, Repr

/-- A TDM port that runs (R434 to R438): the cycle of its last frame start, the masks of the frame in progress, the input and output slip
buffers, oldest frame first, the input frame last read and the output frame last driven. A slot driven at high impedance is `none`. `fresh` until the
first frame start after it starts, stalls or is stepped; `again` when a cut frame makes the read side repeat its previous one. -/
structure TdmRun where
  startAt : Nat
  rxMask  : Nat := 0
  txMask  : Nat := 0
  input   : List (List Nat) := []
  output  : List (List Nat) := []
  lastIn  : List Nat := []
  lastOut : List Nat := []
  wire    : List (Option Nat) := []
  fresh   : Bool := true
  again   : Bool := false
deriving DecidableEq, Repr

/-- A send flow from the second of its start (R442), with its configuration: the first sample of its next packet, its sequence number, and
the sample index that no packet may pass once RUN is cleared. -/
structure SendRun where
  next  : Nat
  seq   : Nat := 0
  until_ : Option Nat := none
  first : Nat
  count : Nat
  ptime : Nat
  delay : Nat
  queue : Nat
  pt    : Nat
  ssrc  : Nat
deriving DecidableEq, Repr

/-- AUD outside its registers (R430 to R446): channel rings as (sample index + 1, sample) by entry x 8,192 + index mod 8,192; the ports; the
send flows; the WCLK_IN monitor; SAMPLES_MISSING of the running second; the sample index of the last host step; the ST 302M sample count of
each output, for the F bit; the cycle since which a microphone is absent (R433). -/
structure Audio where
  rings   : Store (Nat × Nat) := []
  ports   : Store (Option TdmRun) := []
  sends   : Store (Option SendRun) := []
  wclk    : Monitor := {}
  missed  : Bool := false
  stepN   : Option Nat := none
  frames  : Store Nat := []
  absent  : Store Nat := []
deriving DecidableEq, Repr


/-- Why a step can stop with a fault: never. Every row of spec/opcode_table.json has an effect that the spec gives, and an
event whose condition does not hold leaves the state as it is (log entry 3), so no command of this block faults. -/
inductive Fault : Type
deriving DecidableEq, Repr

/-- Why a step can be refused. -/
inductive Refusal
  /-- Raised by an arm of `exec` whose meaning is not written yet. Safe: nothing is claimed of the command. -/
  | notModelled (mnemonic : String)
deriving DecidableEq, Repr

/-- The machine. -/
structure State where
  regs    : Store (BitVec 48) := []
  shadow  : Store (BitVec 48) := []
  acc     : Store Nat := []
  hbm     : List Host.Cell := []
  gallery : List Host.Cell := []
  engineCode : List Host.Cell := []
  timeCode : List Host.Cell := []
  host    : List Host.Cell := []
  otp     : Store (BitVec 32) := []
  cyc     : Nat := 0
  ctr     : Nat := 0
  valid   : Bool := false
  free    : Nat := 0
  attnGen : Nat := 0
  ready   : Ready := .cold
  pins    : Pins := {}
  pwr     : Power := {}
  kpr     : Keeper := {}
  boot    : Boot := {}
  sec     : Sec := {}
  hif     : Hif := {}
  pci     : PciConfig := {}
  replies : Replies := {}
  masters : Store Master := []
  servo   : Servo := {}
  refMon  : Monitor := {}
  clk     : Clocks := {}
  lanes   : Store LanePort := []
  subs    : Store Substream := []
  slots   : Store Slot := []
  flows   : Store Flow := []
  anc     : Store (List (List Byte)) := []
  source  : Store (List Byte) := []
  stats   : Store PicStats := []
  span    : SpanRun := {}
  held    : List Ann := []
  tasks   : Store Task := []
  passes  : List Pass := []
  quarter : Store (List Byte) := []
  records : Store (List Nat) := []
  summary : Store (List Byte) := []
  copies  : Store (List Byte) := []
  luts    : Store (List Nat) := []
  lutBad  : Store (List Nat) := []
  loads   : Store Nat := []
  tags    : Store Tag := []
  order   : Nat := 0
  outs    : Store OutRun := []
  bays    : Store BayRun := []
  bayLog  : Store EngineLog := []
  mzeLog  : Store EngineLog := []
  floors  : Store FloorRun := []
  floorQ  : List Nat := []
  regions : Store RegionRun := []
  slices  : Store (List Byte) := []
  maps    : Store (List Nat) := []
  queues  : Store (List Pkt) := []
  buckets : Store Bucket := []
  svcs    : Store SvcRun := []
  ports   : Store PortTx := []
  rates   : Store RateSet := []
  pcs     : Store Pc := []
  poison  : Store Bool := []
  badWords : Store Bool := []
  wbacks  : Store (List Byte) := []
  rereads : List Nat := []
  scrub   : Store Nat := []
  chk     : Store ChkUnit := []
  scan    : Option ScanRun := none
  sealSnap : PathLatch := {}
  audio   : Audio := {}
  pending : List Instr := []
deriving DecidableEq, Repr

/-- The machine before power arrives: no rail in tolerance, RESET_N low, every register at its reset value, the memories and
fuses listing nothing, the queue empty. -/
def State.reset : State := {}

end Sys2Proof.Machine
end

