-- ==== Sys2Proof/Machine/Ops.lean ====
section
/-!
DEFINITION. Machine/Ops.lean: the named operations over stores, registers, memories, events, fault records and time that every
meaning uses.
-/
namespace Sys2Proof.Machine

/-- What the step of a command answers. -/
abbrev Out := Host.Outcome State Fault Refusal

/-! ### Stores: sparse data in canonical form -/

/-- The value at key `k`; `d` gives what an unlisted key reads as. -/
def Store.get {α : Type} (d : Nat → α) : Store α → Nat → α
  | [], k => d k
  | (a, v) :: m, k => if a = k then v else Store.get d m k

/-- The store without key `k`. -/
def Store.erase {α : Type} : Store α → Nat → Store α
  | [], _ => []
  | (a, v) :: m, k => if a = k then Store.erase m k else (a, v) :: Store.erase m k

/-- The entry (k, v) put before the first larger key. -/
def Store.insert {α : Type} : Store α → Nat → α → Store α
  | [], k, v => [(k, v)]
  | (a, w) :: m, k, v => if k < a then (k, v) :: (a, w) :: m else (a, w) :: Store.insert m k v

/-- The store with `v` at key `k`, in canonical form: writing what an unlisted key reads as removes the entry. -/
def Store.set {α : Type} [DecidableEq α] (d : Nat → α) (m : Store α) (k : Nat) (v : α) : Store α :=
  if v = d k then m.erase k else (m.erase k).insert k v

/-- The canonical form: keys strictly rising and no entry equal to what an unlisted key reads as. -/
def Store.wf {α : Type} [DecidableEq α] (d : Nat → α) (m : Store α) : Bool :=
  decide ((m.map Prod.fst).Pairwise (· < ·)) && m.all (fun e => decide (e.2 ≠ d e.1))

/-- The record of object `k` of a family whose idle record is `default`. -/
def Store.at {α : Type} (m : Store α) (dflt : α) (k : Nat) : α := Store.get (fun _ => dflt) m k

/-- The family with object `k`'s record replaced. -/
def Store.put {α : Type} [DecidableEq α] (m : Store α) (dflt : α) (k : Nat) (v : α) : Store α :=
  Store.set (fun _ => dflt) m k v

/-! ### Bits -/

/-- Bits [lo + w - 1 : lo] of a word, as a number. -/
def bitsOf (v : Reg) (lo w : Nat) : Nat := (v.toNat / 2 ^ lo) % 2 ^ w

/-- The word with bits [lo + w - 1 : lo] replaced by the low `w` bits of `x`. -/
def withBits (v : Reg) (lo w x : Nat) : Reg :=
  BitVec.ofNat 48 (v.toNat - bitsOf v lo w * 2 ^ lo + (x % 2 ^ w) * 2 ^ lo)

/-- Bit `k` of a number. -/
def bitAt (x k : Nat) : Bool := x / 2 ^ k % 2 = 1

/-- The number with bit `k` set. -/
def orBit (x k : Nat) : Nat := if bitAt x k then x else x + 2 ^ k

/-- The number with bit `k` clear. -/
def clearBit (x k : Nat) : Nat := if bitAt x k then x - 2 ^ k else x

/-- A Bool as one bit. -/
def b2n (b : Bool) : Nat := if b then 1 else 0

/-- The two's complement value of the low `w` bits of `x`. -/
def signedOf (w x : Nat) : Int := if x % 2 ^ w < 2 ^ (w - 1) then (x % 2 ^ w : Nat) else ((x % 2 ^ w : Nat) : Int) - (2 ^ w : Nat)

/-- The `w`-bit two's complement pattern of an integer. -/
def unsignedOf (w : Nat) (x : Int) : Nat := (x % ((2 ^ w : Nat) : Int)).toNat

/-! ### Pages and registers by address (R13, R474) -/

/-- The row of R474 that holds the page at BAR0 address `addr`, with the page's instance n; none where the page is absent. -/
def pageOf (addr : Nat) : Option (PageInfo × Nat) :=
  let sub := addr / 0x100000 % 16
  let pg := addr / 0x1000 % 256
  match pageTable.find? (fun p => p.subsys = sub ∧ p.page ≤ pg ∧ pg < p.page + p.count) with
  | some p => some (p, pg - p.page)
  | none => none

/-- The row of R474 of directory index `idx`, with the instance n. -/
def pageByIndex (idx : Nat) : Option (PageInfo × Nat) :=
  match pageTable.find? (fun p => p.index ≤ idx ∧ idx < p.index + p.count) with
  | some p => some (p, idx - p.index)
  | none => none

/-- BAR0 base of instance `n` of a page family (R13, R474). -/
def PageInfo.base (p : PageInfo) (n : Nat) : Nat := p.subsys * 0x100000 + (p.page + n) * 0x1000

/-- BAR0 base of the page at directory index `idx`. -/
def baseOfIndex (idx : Nat) : Nat :=
  match pageByIndex idx with
  | some (p, n) => p.base n
  | none => 0

/-- FEATURES of a page (R476). -/
def pageFeatures (p : PageInfo) (n : Nat) : Nat :=
  match p.kind with
  | .sds => if 16 ≤ n then 1 else 0
  | .shp => 0x2000 + 32 * n
  | .que => 0x4000000 + 1024 * n
  | _ => p.features

/-- The register of `regs` at offset `off`, with its number in its array. -/
def findDesc (regs : List RegDesc) (off : Nat) : Option (RegDesc × Nat) :=
  match regs.find? (fun r => r.off ≤ off ∧ (off - r.off) % r.stride = 0 ∧ (off - r.off) / r.stride < r.count) with
  | some r => some (r, (off - r.off) / r.stride)
  | none => none

/-- The register that a page family holds at offset `off` (R109 and the page's chapter). -/
def regAt (k : PageKind) (off : Nat) : Option (RegDesc × Nat) :=
  if off < 0x40 then findDesc headerRegs off else findDesc (blockRegs k) off

/-- The reset value of a register's fields as its table gives them. -/
def RegDesc.resetBits (r : RegDesc) : Nat := r.fields.foldl (fun a f => a + f.reset * 2 ^ f.lo) 0

/-- DIR.ENTRYi (R480). -/
def dirEntry (i : Nat) : Nat :=
  match pageByIndex i with
  | some (p, n) => p.commit * 2 ^ 36 + p.subsys * 2 ^ 32 + (p.page + n) * 2 ^ 24 + p.typ * 2 ^ 8
      + (if p.count = 1 then 0 else n)
  | none => 0

/-- The arbitration level of a Concourse master at reset (R127). -/
def masterLevel (m : Nat) : Nat :=
  if m = 24 ∨ m = 26 ∨ m = 27 then 0 else if m < 26 then 1 else 2

/-- The header registers' page values (R475 to R478). -/
def headerReset (p : PageInfo) (n off : Nat) : Nat :=
  if off = 0x00 then p.subsys * 2 ^ 32 + p.typ * 2 ^ 16 + (if p.count = 1 then 0 else n) * 2 ^ 8 + 1
  else if off = 0x08 then p.count * 2 ^ 40 + pageFeatures p n
  else if off = 0x10 then 1
  else if off = 0x30 then (p.events.zipIdx.foldl (fun a e => a + e.1 * 2 ^ (3 * e.2)) 0)
  else if off = 0x38 then p.commit * 2 ^ 29
  else 0

/-- The block registers whose reset value depends on the instance or the object shown: DIR entries, MAC paths, master levels,
the system queues and services (R388), mezzanine outputs' carriage (R366). `i` is the object behind a window. -/
def blockReset (p : PageInfo) (n off i k : Nat) (r : RegDesc) : Nat :=
  match p.kind with
  | .dir => if off < 0x690 then dirEntry k else r.resetBits
  | .mac => if off = 0x58 then (n / 2) * 8 else r.resetBits
  | .fab => if 0x8C0 ≤ off then masterLevel k else r.resetBits
  | .asm => if off = 0x48 ∧ 136 ≤ i then r.resetBits + 2 * 2 ^ 46 else r.resetBits
  | .que =>
    if n = 7 ∧ 1020 ≤ i then
      (if off = 0x48 then 2 ^ 47 + (124 + (i - 1020)) * 2 ^ 40
       else if off = 0x50 then r.resetBits + 100000 * 2 ^ 19
       else if off = 0x58 then 4 * 2 ^ 16
       else r.resetBits)
    else r.resetBits
  | .shp =>
    if n = 3 ∧ 28 ≤ k then
      (if off % 0x40 = 0 then
         (if k < 30 then 2 ^ 47 + (k - 28) * 2 ^ 46 else 2 ^ 45 + (k - 30) * 2 ^ 44) + 2 ^ 42 + 7 * 2 ^ 39
       else if off % 0x40 = 8 then r.resetBits + 100000 * 2 ^ 19
       else r.resetBits)
    else r.resetBits
  | _ => r.resetBits

/-- The reset value of the register behind `key` (its BAR0 address, plus 2^24 times the object behind a window). -/
def resetValue (key : Nat) : Reg :=
  let addr := key % 0x1000000
  match pageOf addr with
  | none => 0
  | some (p, n) =>
    let off := addr % 0x1000
    if off < 0x40 then BitVec.ofNat 48 (headerReset p n off)
    else match findDesc (blockRegs p.kind) off with
      | none => 0
      | some (r, k) => BitVec.ofNat 48 (blockReset p n off (key / 0x1000000) k r)

/-! ### Reading and writing State's registers -/

/-- The value in effect of the register behind `key`. -/
def State.reg (s : State) (key : Nat) : Reg := Store.get resetValue s.regs key

/-- `s` with the register behind `key` holding `v`. -/
def State.setReg (s : State) (key : Nat) (v : Reg) : State := { s with regs := Store.set resetValue s.regs key v }

/-- The value in effect of a field. -/
def State.fld (s : State) (f : Fld) : Nat := bitsOf (s.reg f.key) f.lo f.w

/-- `s` with a field holding the low bits of `v`. -/
def State.setFld (s : State) (f : Fld) (v : Nat) : State := s.setReg f.key (withBits (s.reg f.key) f.lo f.w v)

/-- A one-bit field as a Bool. -/
def State.flag (s : State) (f : Fld) : Bool := s.fld f = 1

/-- The shadow copy of the register behind `key` (R113); unlisted, it equals the value in effect at reset. -/
def State.shadowReg (s : State) (key : Nat) : Reg := Store.get resetValue s.shadow key

/-- `s` with a shadow copy holding `v`. -/
def State.setShadow (s : State) (key : Nat) (v : Reg) : State := { s with shadow := Store.set resetValue s.shadow key v }

/-- A field of the shadow copy. -/
def State.shFld (s : State) (f : Fld) : Nat := bitsOf (s.shadowReg f.key) f.lo f.w

/-- `s` with a field of the shadow copy holding the low bits of `v`. -/
def State.setShFld (s : State) (f : Fld) (v : Nat) : State := s.setShadow f.key (withBits (s.shadowReg f.key) f.lo f.w v)

/-- A count field plus `n`, saturating at the field's largest value. -/
def State.satFld (s : State) (f : Fld) (n : Nat := 1) : State := s.setFld f (satAdd f.w (s.fld f) n)

/-- A count field plus `n`, wrapping. -/
def State.wrapFld (s : State) (f : Fld) (n : Nat := 1) : State := s.setFld f (wrapAdd f.w (s.fld f) n)

/-- A field raised to `v` when `v` is larger: a peak. -/
def State.maxFld (s : State) (f : Fld) (v : Nat) : State :=
  if s.fld f < v then s.setFld f (min v (2 ^ f.w - 1)) else s

/-- A running count that a latch will copy out: its value so far (R205, R233, R412, R455). -/
def State.accAt (s : State) (key : Nat) : Nat := Store.at s.acc 0 key

/-- `s` with a running count replaced. -/
def State.setAcc (s : State) (key v : Nat) : State := { s with acc := Store.put s.acc 0 key v }

/-- A running count plus `n`. -/
def State.addAcc (s : State) (key : Nat) (n : Nat := 1) : State := s.setAcc key (s.accAt key + n)

/-! ### Byte memories: HBM, Gallery, host memory (R8, R129) -/

/-- What a byte that nothing has written reads as: zero, as training leaves it (R75, R425; host memory: log entry 7). -/
def Memory.unwritten (_ : Nat) : Byte := 0

/-- The canonical form of a byte memory. -/
def Memory.wf (m : List Host.Cell) : Bool := Store.wf Memory.unwritten m

/-- One byte. -/
def Memory.read1 (m : List Host.Cell) (a : Nat) : Byte := Store.get Memory.unwritten m a

/-- `n` bytes from `a`. -/
def Memory.read (m : List Host.Cell) (a n : Nat) : List Byte := (List.range n).map (fun i => Memory.read1 m (a + i))

/-- The bytes stored one after another from `a`. -/
def Memory.write (m : List Host.Cell) (a : Nat) : List Byte → List Host.Cell
  | [] => m
  | b :: bs => Memory.write (Store.set Memory.unwritten m a b) (a + 1) bs

/-- The memory without the bytes from `lo` to `hi` - 1: those read zero again. -/
def Memory.clear (m : List Host.Cell) (lo hi : Nat) : List Host.Cell := m.filter (fun c => c.1 < lo ∨ hi ≤ c.1)

/-- A little-endian number from bytes (R8). -/
def leNat : List Byte → Nat
  | [] => 0
  | b :: bs => b.toNat + 256 * leNat bs

/-- `n` little-endian bytes of a number (R8). -/
def leBytes : Nat → Nat → List Byte
  | 0, _ => []
  | n + 1, x => BitVec.ofNat 8 x :: leBytes n (x / 256)

/-- A big-endian number from bytes (R8). -/
def beNat (l : List Byte) : Nat := l.foldl (fun a b => a * 256 + b.toNat) 0

/-- `n` big-endian bytes of a number (R8). -/
def beBytes (n x : Nat) : List Byte := (leBytes n x).reverse

/-! ### Codes -/

/-- The number of a READY value (R90). -/
def Ready.code : Ready → Nat
  | .cold => 0 | .waitImage => 1 | .verify => 2 | .init => 3 | .ready => 4 | .degraded => 5 | .quarantine => 6 | .halted => 7

/-- The number of a CODE value (R91). -/
def Code.num : Code → Nat
  | .ok => 0 | .notReady => 1 | .decodeError => 2 | .permission => 3 | .frozen => 4 | .busy => 5 | .badDescriptor => 6
  | .zeroLength => 7 | .stale => 8

/-- The CODE of a number. -/
def Code.ofNum : Nat → Code
  | 1 => .notReady | 2 => .decodeError | 3 => .permission | 4 => .frozen | 5 => .busy | 6 => .badDescriptor
  | 7 => .zeroLength | 8 => .stale | _ => .ok

/-- READY is READY or DEGRADED: the module is in service (R5). -/
def State.inService (s : State) : Bool := s.ready = .ready ∨ s.ready = .degraded

/-- Whether the low-speed lands' outputs are driven: VIN_MAIN powers them, and they are at high impedance while RESET_N is low (R47, R49). -/
def State.drives (s : State) : Bool := s.pwr.main && s.pins.resetN

/-- The level of the PPS_OUT land; none at high impedance (R47, R49). -/
def State.ppsLand (s : State) : Option Bool := if s.drives then some s.pins.ppsOut else none

/-- The frequency of a media clock in Hz (R183). -/
def mediaHz (k : Nat) : Nat := if k = 0 then 24576000 else 22579200

/-- The edges of media clock `k` since the epoch up to a counter instant: they fall at epoch + j / f_k (R183). -/
def mediaEdges (k ctr : Nat) : Nat := ctr * mediaHz k / Config.unitsPerSec

/-- The counter instant of edge j of media clock `k`: the first counter unit at or past epoch + j / f_k (R183). -/
def mediaEdgeAt (k j : Nat) : Nat := (j * Config.unitsPerSec + mediaHz k - 1) / mediaHz k

/-- What AUD_MCLK_OUT shows: high impedance, low, or a clock with the number of its last edge (R47, R49, R184). -/
inductive MclkLand
  | highZ
  | low
  | clock (k edge : Nat)
deriving DecidableEq, Repr

/-- AUD_MCLK_OUT (R183, R184): the selected clock, whose edges follow the counter and so realign at a host step; low while it is off and for
the first period after a change. -/
def State.mclkLand (s : State) : MclkLand :=
  if s.drives = false then .highZ
  else if s.pins.mclkOut = false ∨ s.ctr < s.clk.mclkFrom then .low
  else .clock s.clk.mclkSel (mediaEdges s.clk.mclkSel s.ctr)

/-- READY is HALTED (R468). -/
def State.isHalted (s : State) : Bool := s.ready = .halted

/-! ### Page bases (R474) -/

def Pg.dir : Nat := 0x0
def Pg.kpr : Nat := 0x1000
def Pg.boot : Nat := 0x2000
def Pg.sec : Nat := 0x3000
def Pg.hif : Nat := 0x4000
def Pg.fab : Nat := 0x5000
def Pg.pmc : Nat := 0x6000
def Pg.chk : Nat := 0x7000
def Pg.lane (n : Nat) : Nat := 0x100000 + 0x1000 * n
def Pg.mac (n : Nat) : Nat := 0x104000 + 0x1000 * n
def Pg.pcie : Nat := 0x108000
def Pg.sds (n : Nat) : Nat := 0x110000 + 0x1000 * n
def Pg.ptp : Nat := 0x200000
def Pg.tsu : Nat := 0x201000
def Pg.clk : Nat := 0x202000
def Pg.ref : Nat := 0x203000
def Pg.chin (n : Nat) : Nat := 0x300000 + 0x1000 * n
def Pg.flow (n : Nat) : Nat := 0x310000 + 0x1000 * n
def Pg.paf (n : Nat) : Nat := 0x400000 + 0x1000 * n
def Pg.bay (n : Nat) : Nat := 0x500000 + 0x1000 * n
def Pg.arcc : Nat := 0x510000
def Pg.eau (n : Nat) : Nat := 0x520000 + 0x1000 * n
def Pg.mze (n : Nat) : Nat := 0x600000 + 0x1000 * n
def Pg.dsp : Nat := 0x700000
def Pg.stc (n : Nat) : Nat := 0x701000 + 0x1000 * n
def Pg.asm : Nat := 0x800000
def Pg.seal : Nat := 0x801000
def Pg.gate (n : Nat) : Nat := 0x804000 + 0x1000 * n
def Pg.shp (n : Nat) : Nat := 0x808000 + 0x1000 * n
def Pg.que (n : Nat) : Nat := 0x820000 + 0x1000 * n
def Pg.hbm (n : Nat) : Nat := 0x900000 + 0x1000 * n
def Pg.gal : Nat := 0x902000
def Pg.pdm : Nat := 0xA00000
def Pg.tdm (n : Nat) : Nat := 0xA01000 + 0x1000 * n
def Pg.audc : Nat := 0xA05000

/-! ### Events and attention (R92, R109 to R111, R459) -/

/-- Event `k` of the page at base `b` occurs: its PG_EVENT bit is 1 (R109). -/
def State.raise (s : State) (b k : Nat) : State :=
  s.setFld (PG_EVENT_EVENTS b) (orBit (s.fld (PG_EVENT_EVENTS b)) k)

/-- The event bits of a page that are set, unmasked and of a class other than 0 (R92). -/
def State.pendingBits (s : State) (b : Nat) : List Nat :=
  (List.range 16).filter (fun k =>
    bitAt (s.fld (PG_EVENT_EVENTS b)) k && !bitAt (s.fld (PG_EVMASK_MASK b)) k
      && bitsOf (s.reg (b + 0x30)) (3 * k) 3 != 0)

/-- Pages whose events take part in the pending set before READY: KPR, BOOT and SEC (R459). -/
def earlyPage (b : Nat) : Bool := b = 0x1000 ∨ b = 0x2000 ∨ b = 0x3000

/-- The pending set: pairs (page base, event bits), empty pages left out (R92, R459). -/
def State.pendingSet (s : State) : List (Nat × List Nat) :=
  s.regs.filterMap (fun e =>
    if e.1 < 0x1000000 ∧ e.1 % 0x1000 = 0x20 ∧ (s.inService ∨ earlyPage (e.1 - 0x20)) then
      let bits := s.pendingBits (e.1 - 0x20)
      if bits = [] then none else some (e.1 - 0x20, bits)
    else none)

/-- The highest class in the pending set; 0 when it is empty (R90). -/
def State.attnClass (s : State) : Nat :=
  (s.pendingSet).foldl (fun a e => e.2.foldl (fun c k => max c (bitsOf (s.reg (e.1 + 0x30)) (3 * k) 3)) a) 0

/-- The Reply Status Word for a reply with `code` (R90, R91). -/
def State.rsw (s : State) (code : Code) : Nat :=
  s.ready.code * 2 ^ 13 + b2n (s.pendingSet ≠ []) * 2 ^ 12 + s.attnClass * 2 ^ 8 + code.num * 2 ^ 4 + s.attnGen % 16

/-- A cycle that leads from `s` to `t`: the attention generation increments once when the pending set changed (R92). Where the cycle returned
HIF to reset (R124), the increment counts from 0 (DESIGN CHOICE, log entry 8). -/
def bump (s t : State) : State :=
  { t with attnGen := if t.pendingSet = s.pendingSet then t.attnGen else (t.attnGen + 1) % 2 ^ 32 }

/-- The next state `t`, with the queue as `s` has it. -/
def done (s t : State) : Out := .next { t with pending := s.pending }

/-- The end of a command that takes one cycle: the next state `t` with the queue as `s` has it and the attention generation (R92). -/
def finish (s t : State) : Out := done s (bump s t)

/-! ### Time (R158) -/

/-- The counter's seconds, 48 bits. -/
def secOf (ctr : Nat) : Nat := ctr / Config.unitsPerSec % 2 ^ 48

/-- The counter's nanoseconds within the second. -/
def nsOf (ctr : Nat) : Nat := ctr % Config.unitsPerSec / Config.unitsPerNs

/-- The counter's FRAC, in units of 2^-16 ns. -/
def fracOf (ctr : Nat) : Nat := ctr % Config.unitsPerNs / 65536

/-- The counter wraps after 2^48 seconds. -/
def wrapCtr (c : Nat) : Nat := c % (2 ^ 48 * Config.unitsPerSec)

/-- Nanoseconds in the counter's units. -/
def ns (n : Nat) : Nat := n * Config.unitsPerNs

/-- Microseconds as TIME_CLK cycles. -/
def usCyc (n : Nat) : Nat := n * Config.cyclesPerUs

/-- Milliseconds as TIME_CLK cycles. -/
def msCyc (n : Nat) : Nat := n * (1000 * Config.cyclesPerUs)

/-! ### Free values -/

/-- The next free word, and the state with the counter advanced. -/
def State.freeWord (s : State) : Reg × State := (Config.freeWord s.free, { s with free := s.free + 1 })

/-- The next free yes or no. -/
def State.freeBool (s : State) : Bool × State := (Config.freeBool s.free, { s with free := s.free + 1 })

/-- `n` free bytes. -/
def State.freeBytes (s : State) (n : Nat) : List Byte × State :=
  ((List.range n).map (fun i => Config.freeByte (s.free + i)), { s with free := s.free + n })

/-! ### Fault records (R462, R463) -/

/-- The keeper writes a fault record with the next sequence number; the 64 newest are kept (R462). -/
def State.record (s : State) (kind cls : Nat) (a b : Nat) : State :=
  let r : FaultRec := ⟨s.kpr.seq, kind, cls, s.ready.code, secOf s.ctr % 2 ^ 18, nsOf s.ctr, BitVec.ofNat 48 a, BitVec.ofNat 48 b⟩
  let t := { s with kpr := { s.kpr with seq := (s.kpr.seq + 1) % 2 ^ 32, flog := (r :: s.kpr.flog).take 64 } }
  (t.setFld KPR.FLOG_STAT_NEWEST s.kpr.seq).setFld KPR.FLOG_STAT_EMPTY 0

/-! ### Per-path latches (R161, R382, R463) -/

/-- What the path's last latching read stored. -/
def PathLatch.get (l : PathLatch) : Path → Option (List Reg)
  | .pcie => l.p | .uasyn => l.m | .ring => l.r | .core => l.c

/-- The latch with the path's value replaced. -/
def PathLatch.set (l : PathLatch) (p : Path) (v : List Reg) : PathLatch :=
  match p with
  | .pcie => { l with p := some v } | .uasyn => { l with m := some v } | .ring => { l with r := some v }
  | .core => { l with c := some v }

/-! ### Queues and lists -/

/-- Whether every element of the first list is in the second. -/
def subset {α : Type} [DecidableEq α] (a b : List α) : Bool := a.all (fun x => decide (x ∈ b))

/-- The first element that meets `p`, and the list without it. -/
def takeFirst {α : Type} (p : α → Bool) : List α → Option (α × List α)
  | [] => none
  | x :: xs => if p x then some (x, xs) else (takeFirst p xs).map (fun r => (r.1, x :: r.2))

/-- The least of a list of numbers. -/
def minOf : List Nat → Option Nat
  | [] => none
  | x :: xs => some (xs.foldl min x)

/-- An element of a list by number, or a default. -/
def nth {α : Type} (l : List α) (i : Nat) (d : α) : α := l.getD i d

/-! ### Performance counters (R448 to R450) -/

/-- The register key of counter `c`'s EVSEL. -/
def evselKey (c : Nat) : Nat := winKey (0x6400 + 8 * (c % 64)) (c / 64)

/-- The register key of counter `c`. -/
def cntKey (c : Nat) : Nat := winKey (0x6200 + 8 * (c % 64)) (c / 64)

/-- The counters that count event (sub, event, instance): enabled, selecting it, and not chained (R449, R450). -/
def State.counting (s : State) (sub event inst : Nat) : List Nat :=
  s.regs.filterMap (fun e =>
    let a := e.1 % 0x1000000
    if 0x6400 ≤ a ∧ a < 0x6600 then
      let c := 64 * (e.1 / 0x1000000) + (a - 0x6400) / 8
      let ignores := (sub = 0 ∧ event = 1) ∨ (sub = 2 ∧ event = 1) ∨ (sub = 7 ∧ event = 2)
      if bitsOf e.2 47 1 = 1 ∧ bitsOf e.2 46 1 = 0 ∧ bitsOf e.2 32 4 = sub ∧ bitsOf e.2 0 16 = event
          ∧ (ignores ∨ bitsOf e.2 24 8 = inst) then some c else none
    else none)

/-- One count with a wrap: OVF is set, OVERFLOW raised when OVF_EV is 1 (R448, R452). Answers whether it wrapped. -/
def addCount (c n : Nat) (s : State) : State × Bool :=
  let v := (s.reg (cntKey c)).toNat + n
  let t := s.setReg (cntKey c) (BitVec.ofNat 48 v)
  if v < 2 ^ 48 then (t, false)
  else
    let e := t.reg (evselKey c)
    let t := t.setReg (evselKey c) (withBits e 45 1 1)
    (if bitsOf e 43 1 = 1 then t.raise Pg.pmc 0 else t, true)

/-- Counter `c` counts `n`; a wrap of an even counter reaches the odd one above it when that one is chained (R450). -/
def countOn (c n : Nat) (s : State) : State :=
  let (t, wrapped) := addCount c n s
  let e := t.reg (evselKey (c + 1))
  if wrapped ∧ c % 2 = 0 ∧ bitsOf e 46 1 = 1 ∧ bitsOf e 47 1 = 1 then (addCount (c + 1) 1 t).1 else t

/-- Event (sub, event, instance) occurs `n` times (R448, R449). -/
def State.count (s : State) (sub event inst : Nat) (n : Nat := 1) : State :=
  (s.counting sub event inst).foldl (fun t c => countOn c n t) s

end Sys2Proof.Machine
end

