-- ==== Sys2Proof/Machine/Reset.lean ====
section
/-!
DEFINITION. Machine/Reset.lean: entry to HALTED, warm and cold resets, and what each of them keeps (R124, R468 to R472).
-/
namespace Sys2Proof.Machine

/-- The page that holds register key `k`. -/
def keyPage (k : Nat) : Nat := k % 0x1000000 / 0x1000

/-- Every HIF register returns to reset, the attention generation among them, and with them the rings and heartbeats, as on every entry to a READY
state other than READY and DEGRADED (R124). That the heartbeats' sequence number and MISSED restart at 0, and that a command in execution is
dropped, the spec does not say (DESIGN CHOICE, log entry 84). -/
def hifReset (s : State) : State :=
  { s with
    attnGen := 0
    regs := s.regs.filter (fun e => keyPage e.1 ≠ 0x4)
    hif := { linkUp := s.hif.linkUp, lanesOn := s.hif.lanesOn, d3hot := s.hif.d3hot }
    replies := { s.replies with codes := s.replies.codes.filter (fun e => keyPage e.1 ≠ 0x4) } }

/-- A key of HIF's ring registers or of HIF.BAR2_BASE (R98). -/
def isRingKey (k : Nat) : Bool := keyPage k = 0x4 ∧ (k % 0x1000 = 0x80 ∨ 0x100 ≤ k % 0x1000)

/-- A hot reset, link down or PCIE_PERST_N low: the configuration space returns to its defaults, the ring registers and BAR2_BASE to reset
(R98). The rings are thereby disabled: the command in execution completes (R123). That the heartbeats' sequence number and MISSED restart
at 0 the spec does not say (DESIGN CHOICE, log entry 84). -/
def pcieReset (s : State) : State :=
  { s with
    regs := s.regs.filter (fun e => !isRingKey e.1)
    pci := {}
    hif := { lanesOn := s.hif.lanesOn, cur := s.hif.cur } }

/-- Whether master `m` is frozen: its bit of KPR.FRZ_STAT (R142). -/
def State.frozen (s : State) (m : Nat) : Bool := bitAt (s.fld KPR.FRZ_STAT_FROZEN) m

/-- The bits of a block register that count since cold reset, and are therefore kept by a warm reset and by a page's SOFT_RESET
(R112): as (offset, lowest bit, width). -/
def coldCounts : PageKind → List (Nat × Nat × Nat)
  | .fab => [(0x50, 16, 32)]
  | .boot => [(0x50, 16, 32)]
  | .pcie => [(0x40, 32, 16)]
  | .bay => [(0x60, 0, 48), (0x68, 0, 48), (0x70, 32, 16)]
  | .eau => [(0x48, 0, 48), (0x50, 0, 48)]
  | .mze => [(0x58, 0, 48), (0x60, 32, 16)]
  | .sds => [(0x40, 16, 16)]
  | _ => []

/-- The bits of a block register that count since READY or since the slot started, and are kept by a page's SOFT_RESET (R112). -/
def readyCounts : PageKind → List (Nat × Nat × Nat)
  | .sec => [(0xE8, 8, 8)]
  | .paf => [(0x80, 32, 16), (0x80, 0, 16)]
  | .stc => [(0x50, 16, 32), (0x800, 0, 16)]
  | .dsp => [(0x60, 16, 13), (0x68, 16, 12), (0x70, 0, 48), (0x78, 0, 48), (0x80, 0, 48), (0x88, 0, 48)]
      ++ (List.range 16).map (fun v => (0x180 + 8 * v, 32, 16))
  | .gal => [(0x100, 32, 16), (0x40, 0, 48)]
  | .hbm => [(0x48, 32, 16), (0x50, 32, 16)]
  | _ => []

/-- A register's value after its page returned to reset, with the listed counts kept. -/
def keepCounts (counts : List (Nat × Nat × Nat)) (key : Nat) (v : Reg) : Reg :=
  (counts.filter (fun c => c.1 = key % 0x1000)).foldl (fun a c => withBits a c.2.1 c.2.2 (bitsOf v c.2.1 c.2.2)) (resetValue key)

/-- The registers of the store after the pages that `stay` does not keep returned to reset, counts since cold reset kept when
`counts` is true (R112, R470, R472). -/
def resetRegs (stay : Nat → Bool) (counts : Bool) (regs : Store Reg) : Store Reg :=
  regs.foldl (fun m e =>
    if stay e.1 then Store.set resetValue m e.1 e.2
    else if counts then
      match pageOf (e.1 % 0x1000000) with
      | some (p, _) => Store.set resetValue m e.1 (keepCounts (coldCounts p.kind) e.1 e.2)
      | none => m
    else m) []

/-- What the core's circuits hold outside their registers, the keeper, the endpoint, the memories and the fuses is lost: every unit is
idle, no packet is held, no output works. -/
def dropUnits (s : State) : State :=
  { State.reset with
    regs := s.regs, hbm := s.hbm, gallery := s.gallery, engineCode := s.engineCode, timeCode := s.timeCode, host := s.host, otp := s.otp
    cyc := s.cyc, ctr := s.ctr, valid := s.valid
    free := s.free, attnGen := s.attnGen, ready := s.ready, pins := s.pins, pwr := s.pwr, kpr := s.kpr, boot := s.boot, sec := s.sec
    hif := s.hif, pci := s.pci, replies := { s.replies with codes := [] }, masters := s.masters, clk := s.clk, lanes := s.lanes
    pcs := s.pcs, poison := s.poison, badWords := s.badWords, wbacks := s.wbacks, pending := s.pending }

/-- Whether an engine of a pool is retired (R286, R353, R354). -/
def State.hasRetired (s : State) : Bool :=
  s.fld ARCC.BAYS_RETIRED ≠ 0 || (List.range 8).any (fun n => s.fld (MZE.STAT_STATE n) = 4)

/-- The CTL_CLK cycle after bring-up ended at READY: DEGRADED where an engine stays retired (R467). -/
def degrade (s : State) : State := if s.ready = .ready ∧ s.hasRetired then { s with ready := .degraded } else s

/-- Entry to HALTED (R468, R124): every output stops, every held packet is discarded, and HIF returns to reset. -/
def halt (s : State) : State := hifReset (dropUnits { s with ready := .halted })

end Sys2Proof.Machine
end

