-- ==== Sys2Proof/Machine/Lanes.lean ====
section
/-!
DEFINITION. Machine/Lanes.lean: the Ethernet lanes and ports, their adaptation, and the PCIe link (spec 07, 22 R482).
-/
namespace Sys2Proof.Machine

/-- The record of port `n`. -/
def State.lane (s : State) (n : Nat) : LanePort := Store.at s.lanes {} n

/-- The record of port `n` replaced. -/
def State.setLane (s : State) (n : Nat) (l : LanePort) : State := { s with lanes := Store.put s.lanes {} n l }

/-- Whether port `n` is ACTIVE (R189). -/
def State.portActive (s : State) (n : Nat) : Bool := s.fld (LANE.STAT_STATE n) = 6

/-- Applied to each of the four SerDes lanes of port `n` (R185). -/
def onLanes (n : Nat) (f : Nat → State → State) (s : State) : State :=
  f (4 * n + 3) (f (4 * n + 2) (f (4 * n + 1) (f (4 * n) s)))

/-- SDSn.STAT.POWERED of a lane; unpowered, the eye reads zero (R482). -/
def setPowered (on : Bool) (lane : Nat) (s : State) : State :=
  let t := s.setFld (SDS.STAT_POWERED lane) (b2n on)
  if on then t else (t.setFld (SDS.EYE_HEIGHT lane) 0).setFld (SDS.EYE_WIDTH lane) 0

/-- Clock recovery of lane 4n + m as LANEn.STAT and SDSn.STAT show it; unlocked, the eye reads zero (R482). -/
def setCdr (n m : Nat) (on : Bool) (s : State) : State :=
  let bits := s.fld (LANE.STAT_CDR_LOCK n)
  let t := s.setFld (LANE.STAT_CDR_LOCK n) (if on then orBit bits m else clearBit bits m)
  let t := t.setFld (SDS.STAT_CDR_LOCK (4 * n + m)) (b2n on)
  if on then t else (t.setFld (SDS.EYE_HEIGHT (4 * n + m)) 0).setFld (SDS.EYE_WIDTH (4 * n + m)) 0

/-- LANEn.STAT.FROZEN: frozen by idle, or by ADAPT_HOLD except in CDR and ADAPT (R197, R198). -/
def showFrozen (n : Nat) (s : State) : State :=
  let st := s.fld (LANE.STAT_STATE n)
  let held := s.fld (LANE.CFG_ADAPT_HOLD n) = 1 && st != 3 && st != 4
  s.setFld (LANE.STAT_FROZEN n) (b2n ((s.lane n).idleFrozen || held))

/-- Port `n` enters a state of R189: MACn.STAT.LINK follows ACTIVE, the lanes are powered from CAL to ACTIVE, a port that is not ACTIVE holds no
idle freeze, and the time in the state and the idle count begin. In DETECT the committed speed is in effect (MACn.STAT.SPEED). -/
def enterLane (n st : Nat) (s : State) : State :=
  let t := s.setFld (LANE.STAT_STATE n) st
  let t := t.setFld (MAC.STAT_LINK n) (b2n (st = 6))
  let t := if st = 2 then t.setFld (MAC.STAT_SPEED n) (t.fld (LANE.CFG_SPEED n)) else t
  let t := onLanes n (setPowered (decide (1 ≤ st ∧ st ≤ 6))) t
  let l := t.lane n
  showFrozen n (t.setLane n { l with idleFrozen := false, idleFrom := t.cyc, resumeAt := none, enteredAt := t.cyc })

/-! ### What the lanes carry (R187, R189, R199, R201, R202) -/

/-- What the transmitter of a port drives onto its lanes. -/
inductive TxSignal
  | silent | data | remoteFault | pattern (code : Nat) | received
deriving DecidableEq, Repr

/-- The signal of port `n` (R189, R199, R201, R202): silent up to CAL, in DEEP_REST and under TX_SQUELCH; a pattern while one is generated; under
the far-end loop what is received; else PCS data, which is idle between frames, when the receive side is ACTIVE, and remote fault
otherwise. -/
def State.txSignal (s : State) (n : Nat) : TxSignal :=
  let st := s.fld (LANE.STAT_STATE n)
  if st < 2 ∨ st = 7 ∨ s.fld (LANE.CFG_TX_SQUELCH n) = 1 then .silent
  else if s.fld (LANE.TEST_GEN n) ≠ 0 then .pattern (s.fld (LANE.TEST_GEN n))
  else if s.fld (LANE.CFG_LOOP n) = 3 then .received
  else if st = 6 then .data else .remoteFault

/-- The physical lane on which logical lane `k` of port `n` leaves, and whether its polarity is inverted (R187). -/
def State.txLane (s : State) (n k : Nat) : Nat × Bool := (4 * n + k, bitAt (s.fld (LANE.CFG_TX_INV n)) k)

/-- Whether the receiver of physical lane 4n + k inverts its polarity (R187); the PCS then restores lane order from the alignment markers, so
that which lane carries which logical lane leaves no trace. -/
def State.rxInverted (s : State) (n k : Nat) : Bool := bitAt (s.fld (LANE.CFG_RX_INV n)) k

/-- Whether port `n` runs FEC: always at 400G and 200G, at 100G unless FEC_OFF is 1 (R186). -/
def State.fecOn (s : State) (n : Nat) : Bool := !(s.fld (MAC.STAT_SPEED n) = 2 && s.fld (LANE.CFG_FEC_OFF n) = 1)

/-- Whether a near-end loop feeds the receiver of port `n`, which then ignores its lands (R199). -/
def State.looped (s : State) (n : Nat) : Bool := s.fld (LANE.CFG_LOOP n) = 1 || s.fld (LANE.CFG_LOOP n) = 2

/-- A counter instant in units of 0.25 ns: FRAC bits [15:14], the bits below zero (R163). -/
def quarters (ctr : Nat) : Nat := ctr / 1073741824

/-- The timestamp of a frame at the lands in this TIME_CLK cycle (R158, R163): where in the cycle it comes no command says, a free value. -/
def State.stamp (s : State) : Nat × State :=
  let (w, t) := s.freeWord
  (quarters (s.ctr + w.toNat % max 1 (s.fld PTP.INCR_INCR)), t)

/-- A frame is received on port `n`: its timestamp (R163). -/
def stampRx (n : Nat) (s : State) : State :=
  let (x, t) := s.stamp
  t.setLane n { t.lane n with rxStamp := x }

/-- A PTP event message is sent on port `n`: its timestamp (R163). -/
def stampTx (n : Nat) (s : State) : State :=
  let (x, t) := s.stamp
  t.setLane n { t.lane n with txStamp := x }

/-- A class of 64b/66b blocks (R196): Idle, an ordered set of local or remote fault, and every other block. -/
inductive BlockKind
  | idle | localFault | remoteFault | payload
deriving DecidableEq, Repr

/-- An idle-only block (R196). -/
def BlockKind.idleOnly : BlockKind → Bool
  | .payload => false
  | _ => true

/-- A block of the received stream (R197): payload restarts the 1 ms idle count, and the first after a freeze starts the 1 µs to the
resumption. -/
def heardBlock (n : Nat) (b : BlockKind) (s : State) : State :=
  if b.idleOnly then s
  else
    let l := s.lane n
    s.setLane n { l with
      idleFrom := s.cyc
      resumeAt := if l.idleFrozen ∧ l.resumeAt = none then some (s.cyc + usCyc 1) else l.resumeAt }

/-! ### From CAL to ACTIVE (R189, R190) -/

/-- The time limit of a state of port `n` in cycles: CDR 1 ms, ADAPT 15 ms at PAM4 and 5 ms at NRZ, ALIGN 2 ms; none elsewhere, nor in ALIGN
while a generated pattern holds the port out of ACTIVE (R189, R201). -/
def State.laneLimit (s : State) (n : Nat) : Option Nat :=
  match s.fld (LANE.STAT_STATE n) with
  | 3 => some (msCyc 1)
  | 4 => some (if s.fld (MAC.STAT_SPEED n) = 2 then msCyc 5 else msCyc 15)
  | 5 => if s.fld (LANE.TEST_GEN n) ≠ 0 then none else some (msCyc 2)
  | _ => none

/-- The cycles that port `n` has been in its state. -/
def State.laneTime (s : State) (n : Nat) : Nat := s.cyc - (s.lane n).enteredAt

/-- Whether the time limit of the port's state is not exceeded. -/
def State.inLimit (s : State) (n : Nat) : Bool :=
  match s.laneLimit n with
  | some m => decide (s.laneTime n ≤ m)
  | none => true

/-- All four lanes' clock recovery lost or locked. -/
def setAllCdr (n : Nat) (on : Bool) (s : State) : State :=
  setCdr n 3 on (setCdr n 2 on (setCdr n 1 on (setCdr n 0 on s)))

/-- The calibration codes of lane `lane` in SDSn.CAL (R482): RX_TERM, TX_TERM and OFFSET. -/
def setCal (lane : Nat) (trim : BitVec 24) (s : State) : State :=
  let x := trim.toNat
  ((s.setFld (SDS.CAL_RX_TERM lane) (x / 65536)).setFld (SDS.CAL_TX_TERM lane) (x / 256)).setFld (SDS.CAL_OFFSET lane) x

/-- LANE_CAL_DONE (R189): the PLL is locked and every lane calibrated; the port leaves CAL (in INIT: OFF) for DETECT, or for DEEP_REST where
DEEP_REST is set (R202, log entry 89). -/
def execLaneCalDone (port : Fin 4) (trim : Vector (BitVec 24) 4) (s : State) : Out :=
  finish s <|
    let n := port.val
    let st := s.fld (LANE.STAT_STATE n)
    if (s.inService ∧ st = 1) ∨ (s.ready = .init ∧ (st = 0 ∨ st = 1)) then
      let t := setCal (4 * n) trim[0] s
      let t := setCal (4 * n + 1) trim[1] t
      let t := setCal (4 * n + 2) trim[2] t
      let t := setCal (4 * n + 3) trim[3] t
      enterLane n (if t.fld (LANE.CFG_DEEP_REST n) = 1 then 7 else 2) (t.setLane n { t.lane n with calibrated := true })
    else s

/-- SIGNAL_DETECT (R189): signal on all four lanes for 100 µs in DETECT. -/
def execSignalDetect (port : Fin 4) (s : State) : Out :=
  finish s <|
    let n := port.val
    if s.fld (LANE.STAT_STATE n) = 2 then
      enterLane n 3 (onLanes n (fun l t => t.setFld (SDS.STAT_SIGNAL l) 1) s)
    else s

/-- CDR_LOCK (R189): every lane's clock recovery is locked within the state's limit. -/
def execCdrLock (port : Fin 4) (s : State) : Out :=
  finish s <|
    let n := port.val
    if s.fld (LANE.STAT_STATE n) = 3 ∧ s.inLimit n then enterLane n 4 (setAllCdr n true s) else s

/-- A value limited to a range. -/
def clampInt (lo hi x : Int) : Int := if x < lo then lo else if hi < x then hi else x

/-- DFE tap k = i + 1 after the clamp of R195: taps 5 to 8 read zero at 100G. -/
def dfeTap (speed : Nat) (i : Nat) (x : Int) : Int := if speed = 2 ∧ 4 ≤ i then 0 else clampInt (-16) 15 x

/-- RXEQm.DFE: tap k in bits [44 - 5k : 40 - 5k], two's complement. -/
def dfeField (speed : Nat) (taps : Vector Int 8) : Nat :=
  (taps.toList.zipIdx).foldl (fun a e => a + unsignedOf 5 (dfeTap speed e.2 e.1) * 2 ^ (35 - 5 * e.2)) 0

/-- Whether any element of a lane sits at a limit of its range (R195). -/
def laneClamped (speed : Nat) (a : LaneAdapt) : Bool :=
  decide (a.ctle ≤ 0 ∨ 31 ≤ a.ctle) ||
    (a.taps.toList.zipIdx).any (fun e => (speed != 2 || decide (e.2 < 4)) && decide (e.1 ≤ -16 ∨ 15 ≤ e.1))

/-- The adaptation of lane 4n + m: RXEQm, and bit m of CLAMPED, whose rise raises TAP_CLAMP (R195). -/
def setAdapt (n m : Nat) (a : LaneAdapt) (s : State) : State :=
  let speed := s.fld (LANE.CFG_SPEED n)
  let t := s.setFld (LANE.RXEQ_CTLE n m) (unsignedOf 5 (clampInt 0 31 a.ctle))
  let t := t.setFld (LANE.RXEQ_DFE n m) (dfeField speed a.taps)
  let was := bitAt (s.fld (LANE.STAT_CLAMPED n)) m
  let now := laneClamped speed a
  let c := t.fld (LANE.STAT_CLAMPED n)
  let t := t.setFld (LANE.STAT_CLAMPED n) (if now then orBit c m else clearBit c m)
  if now && !was then t.raise (Pg.lane n) 2 else t

/-- The adaptation of all four lanes. -/
def setAdapts (n : Nat) (lanes : Vector LaneAdapt 4) (s : State) : State :=
  setAdapt n 3 lanes[3] (setAdapt n 2 lanes[2] (setAdapt n 1 lanes[1] (setAdapt n 0 lanes[0] s)))

/-- ADAPT_CONVERGED (R189, R195): CTLE and DFE have converged on every lane within the state's limit. From ALIGN on the receivers go on adapting
unless frozen (R195, R197, R198), and the command gives the values they have come to. -/
def execAdaptConverged (port : Fin 4) (lanes : Vector LaneAdapt 4) (s : State) : Out :=
  finish s <|
    let n := port.val
    let st := s.fld (LANE.STAT_STATE n)
    if st = 4 ∧ s.inLimit n then enterLane n 5 (setAdapts n lanes s)
    else if (st = 5 ∨ st = 6) ∧ s.fld (LANE.STAT_FROZEN n) = 0 then setAdapts n lanes s
    else s

/-- ALIGN_COMPLETE (R189, R190): FEC and alignment lock; LINK_UP is raised. A pattern generator holds the port out (R201). -/
def execAlignComplete (port : Fin 4) (s : State) : Out :=
  finish s <|
    let n := port.val
    if s.fld (LANE.STAT_STATE n) = 5 ∧ s.fld (LANE.TEST_GEN n) = 0 ∧ s.inLimit n then (enterLane n 6 s).raise (Pg.lane n) 0
    else s

/-- ADAPT_FAIL (R190): CDR, ADAPT or ALIGN reaches the end of its limit undone; back to DETECT with the adaptation values kept. -/
def execAdaptFail (port : Fin 4) (s : State) : Out :=
  finish s <|
    let n := port.val
    match s.laneLimit n with
    | some m => if m ≤ s.laneTime n then (enterLane n 2 s).raise (Pg.lane n) 3 else s
    | none => s

/-- LINK_DOWN (R190): an ACTIVE port loses signal or a lock; `cdrLost` names the lanes whose clock recovery is lost. -/
def execLinkDown (port : Fin 4) (cdrLost : BitVec 4) (s : State) : Out :=
  finish s <|
    let n := port.val
    if s.portActive n then
      let lose (m : Nat) (t : State) : State :=
        if bitAt cdrLost.toNat m then (setCdr n m false t).setFld (SDS.STAT_SIGNAL (4 * n + m)) 0 else t
      let t := lose 3 (lose 2 (lose 1 (lose 0 s)))
      let t := t.addAcc (MAC.LINK_DOWNS_V n).key
      (enterLane n 2 t).raise (Pg.lane n) 1
    else s

/-- IDLE_FREEZE (R196 to R198): 1 ms of idle-only blocks in ACTIVE freezes the lanes; ADAPT_HOLD leaves R197 without effect. `payload`: a payload
block arrives at the instant the count would end, which prevents the freeze (R197); `lost`: the port loses signal in the same cycle,
which prevails (R190). -/
def execIdleFreeze (port : Fin 4) (s : State) (payload lost : Bool := false) : Out :=
  finish s <|
    let n := port.val
    let l := s.lane n
    if payload ∧ s.portActive n then heardBlock n .payload s
    else if s.portActive n ∧ lost = false ∧ s.fld (LANE.CFG_ADAPT_HOLD n) = 0 ∧ l.idleFrozen = false ∧ l.idleFrom + msCyc 1 ≤ s.cyc then
      let t := s.setLane n { l with idleFrozen := true, resumeAt := none }
      showFrozen n (t.addAcc (MAC.IDLE_FREEZES_V n).key)
    else s

/-- ADAPT_RESUME (R197): 1 µs after the first payload block that follows a freeze. `lost`: the port loses signal in the same cycle (R190). -/
def execAdaptResume (port : Fin 4) (s : State) (lost : Bool := false) : Out :=
  finish s <|
    let n := port.val
    let l := s.lane n
    let due : Bool := match l.resumeAt with
      | some c => decide (c ≤ s.cyc)
      | none => false
    if l.idleFrozen ∧ lost = false ∧ due then showFrozen n (s.setLane n { l with idleFrozen := false, resumeAt := none }) else s

/-- The default transmit taps of a speed: PRE, MAIN, POST (R194). -/
def defaultTaps : Nat → Nat × Nat × Nat
  | 0 => (4, 54, 6) | 1 => (2, 56, 6) | _ => (0, 58, 6)

/-- Every lane of port `n` takes its speed's default transmit taps (R192, R194). -/
def loadTaps (n : Nat) (s : State) : State :=
  let d := defaultTaps (s.fld (LANE.CFG_SPEED n))
  (List.range 4).foldl (fun t m =>
    ((t.setFld (LANE.TXEQ_PRE n m) d.1).setFld (LANE.TXEQ_MAIN n m) d.2.1).setFld (LANE.TXEQ_POST n m) d.2.2) s

/-- Whether a stored DFE code of 5 bits or CTLE code lies at a limit. -/
def State.atLimit (s : State) (n m : Nat) : Bool :=
  let dfe := s.fld (LANE.RXEQ_DFE n m)
  let ctle := s.fld (LANE.RXEQ_CTLE n m)
  ctle = 0 || ctle = 31 || (List.range 4).any (fun i => decide (dfe / 2 ^ (35 - 5 * i) % 32 = 15 ∨ dfe / 2 ^ (35 - 5 * i) % 32 = 16))

/-- At 100G taps 5 to 8 of every lane of port `n` are not used and read zero; a lane whose CLAMPED bit rested on them alone clears it (R195). -/
def dropTaps (n : Nat) (s : State) : State :=
  if s.fld (LANE.CFG_SPEED n) ≠ 2 then s
  else (List.range 4).foldl (fun t m =>
    let u := t.setFld (LANE.RXEQ_DFE n m) (t.fld (LANE.RXEQ_DFE n m) / 2 ^ 20 * 2 ^ 20)
    if u.atLimit n m then u else u.setFld (LANE.STAT_CLAMPED n) (clearBit (u.fld (LANE.STAT_CLAMPED n)) m)) s

/-- The committed speed of port `n` takes effect: its default transmit taps, and the taps it does not use (R192, R194, R195). -/
def takeSpeed (n : Nat) (s : State) : State := dropTaps n (loadTaps n s)

/-- Whether port `n` is enabled and not to rest, so that it may leave OFF or CAL for DETECT (R189, R202, R479). -/
def State.mayRun (s : State) (n : Nat) : Bool := s.fld (PG_CTRL_ENABLE (Pg.lane n)) = 1 && s.fld (LANE.CFG_DEEP_REST n) = 0

/-- The state in which port `n` starts once its PLL runs at the committed speed: DETECT, or CAL where a change of SPEED cut its calibration off
(R189, R192). -/
def State.startsIn (s : State) (n : Nat) : Nat := if (s.lane n).calibrated then 2 else 1

/-- SPEED_CHANGE_RELOCK (R192): the LC PLL has relocked after a committed change of SPEED; the port enters DETECT. -/
def execSpeedChangeRelock (port : Fin 4) (s : State) : Out :=
  finish s <|
    let n := port.val
    if (s.lane n).relock ∧ s.fld (LANE.STAT_STATE n) = 0 ∧ s.mayRun n then
      enterLane n (s.startsIn n) (s.setLane n { s.lane n with relock := false })
    else s

/-- DEEP_REST_EXIT (R202, R203): DEEP_REST is clear and the kept values restored; a SPEED change committed meanwhile applies. -/
def execDeepRestExit (port : Fin 4) (s : State) : Out :=
  finish s <|
    let n := port.val
    if s.fld (LANE.STAT_STATE n) = 7 ∧ s.fld (LANE.CFG_DEEP_REST n) = 0 then
      let t := if (s.lane n).relock then takeSpeed n (s.setLane n { s.lane n with relock := false }) else s
      enterLane n (s.startsIn n) t
    else s

/-- A committed LANEn page that sets DEEP_REST (R202): a port that is enabled and past CAL rests, one in CAL rests once calibrated, and a disabled
one stays OFF; a change of SPEED waits for the exit (log entry 89). -/
def enterRest (n : Nat) (s : State) : State :=
  let st := s.fld (LANE.STAT_STATE n)
  if st = 7 ∨ st = 1 ∨ s.fld (PG_CTRL_ENABLE (Pg.lane n)) = 0 then s
  else enterLane n 7 (setAllCdr n false (s.setReg (Pg.lane n + 0x90) 0))

/-- A committed LANEn page (R192, R198 to R202): `old` is the CFG before the commit. A disabled port takes a new speed at once and locks its PLL to
it in CAL. -/
def laneCommitted (n : Nat) (old : Reg) (s : State) : State :=
  let oldLoop := bitsOf old 8 2
  let loop := s.fld (LANE.CFG_LOOP n)
  let moved := decide (s.fld (LANE.CFG_SPEED n) ≠ bitsOf old 0 2)
  let st := s.fld (LANE.STAT_STATE n)
  let wait (t : State) : State := if moved then t.setLane n { t.lane n with relock := true } else t
  showFrozen n <|
    if s.fld (PG_CTRL_ENABLE (Pg.lane n)) = 0 then (if moved then takeSpeed n s else s)
    else if s.fld (LANE.CFG_DEEP_REST n) = 1 then enterRest n (wait s)
    else if st = 7 then wait s
    else if moved then
      enterLane n 0 (setAllCdr n false (wait (takeSpeed n s)))
    else if loop ≠ oldLoop ∧ (loop = 1 ∨ loop = 2 ∨ oldLoop = 1 ∨ oldLoop = 2) ∧ 2 ≤ st then
      enterLane n 3 (s.setLane n { s.lane n with echoes := [] })
    else s

/-- A change of LANEn's ENABLE (R479): 0 takes the port to OFF, 1 restarts it at CAL. A change of SPEED that waited applies. -/
def laneEnable (n : Nat) (on : Bool) (s : State) : State :=
  if on then (if s.fld (LANE.STAT_STATE n) = 0 ∧ (s.lane n).relock = false then enterLane n 1 s else s)
  else
    let t := if (s.lane n).relock then takeSpeed n s else s
    enterLane n 0 (setAllCdr n false (t.setLane n {}))

/-- The transmit taps' rule: PRE + MAIN + POST at most 64 (R194). -/
def tapsValid (data : Reg) : Bool := decide (bitsOf data 16 5 + bitsOf data 8 7 + bitsOf data 0 5 ≤ 64)

/-- The pattern codes that suit a speed (R201). -/
def patternFits (speed code : Nat) : Bool :=
  if code = 0 then true else if code = 1 then speed = 2 else speed != 2 && decide (code ≤ 4)

/-- A write of LANEn.TEST clears the error counts; a generator takes an ACTIVE port out of ACTIVE, and the time in ALIGN counts from its end
(R201). -/
def laneTestSet (n : Nat) (data : Reg) (s : State) : State :=
  let t := (s.setReg (Pg.lane n + 0x90) data).setFld (LANE.PRBS_ERR_ERRORS n) 0
  if t.fld (LANE.TEST_GEN n) ≠ 0 ∧ t.portActive n then enterLane n 5 t
  else t.setLane n { t.lane n with enteredAt := if t.fld (LANE.STAT_STATE n) = 5 then t.cyc else (t.lane n).enteredAt }

/-- The errors that the checkers of port `n` have counted by now (R201): while a pattern is checked each lane's 12-bit count has risen by an amount
that only the lanes know, a free value, saturating at 4,095. -/
def countErrors (n : Nat) (s : State) : State :=
  if s.fld (LANE.TEST_CHECK n) = 0 then s
  else
    let (w, t) := s.freeWord
    let lane (m : Nat) : Nat := min 4095 (bitsOf (t.reg (LANE.PRBS_ERR_ERRORS n).key) (12 * m) 12 + bitsOf w (12 * m) 12)
    t.setReg (LANE.PRBS_ERR_ERRORS n).key (BitVec.ofNat 48 (lane 0 + lane 1 * 2 ^ 12 + lane 2 * 2 ^ 24 + lane 3 * 2 ^ 36))

/-- EYE_MEASUREMENT (R482): a powered and locked lane's eye replaces the previous one whole. -/
def execEyeMeasurement (lane : Fin 24) (height width : BitVec 8) (s : State) : Out :=
  finish s <|
    let l := lane.val
    if s.fld (SDS.STAT_POWERED l) = 1 ∧ s.fld (SDS.STAT_CDR_LOCK l) = 1 then
      let t := (s.setFld (SDS.EYE_HEIGHT l) height.toNat).setFld (SDS.EYE_WIDTH l) width.toNat
      t.wrapFld (SDS.EYE_SEQ l)
    else s

/-- The PCIe lanes' monitors, powered or not and locked or not (R482). -/
def setPcieLanes (powered locked : Bool) (s : State) : State :=
  (List.range 8).foldl (fun t i =>
    let t := setPowered powered (16 + i) t
    let t := t.setFld (SDS.STAT_CDR_LOCK (16 + i)) (b2n locked)
    if locked then t else (t.setFld (SDS.EYE_HEIGHT (16 + i)) 0).setFld (SDS.EYE_WIDTH (16 + i)) 0) s

/-- The link leaves L0: PCIE.LINK shows Detect and no rate (R192). -/
def pcieLinkLost (s : State) : State :=
  let t := { s with hif := { s.hif with linkUp := false } }
  setPcieLanes t.hif.lanesOn false (((t.setFld PCIE.LINK_LTSSM 0).setFld PCIE.LINK_RATE 0).setFld PCIE.LINK_WIDTH 0)

end Sys2Proof.Machine
end

