-- ==== Sys2Proof/Machine/Time.lean ====
section
/-!
DEFINITION. Machine/Time.lean: the time counter, the PTP servo, path delay and REF_IN (spec 06, R157 to R182).
Times of samples are integers in units of 2^-16 ns, the resolution of PTP correction fields; the servo computes in exact
rational nanoseconds, as R169 to R177 state it, and rounds only what a register shows (log entry 11).
-/
namespace Sys2Proof.Machine

/-! ### Servo arithmetic -/

/-- The magnitude of a rational. -/
def ratAbs (x : Rat) : Rat := if x < 0 then -x else x

/-- `x` limited to [-limit, limit]. -/
def ratClamp (limit x : Rat) : Rat := if x < -limit then -limit else if limit < x then limit else x

/-- Nearest integer, halves upward. -/
def ratRound (x : Rat) : Int := (x + 1 / 2).floor

/-- Insertion into a rising list. -/
def insertRat (x : Rat) : List Rat → List Rat
  | [] => [x]
  | y :: ys => if x ≤ y then x :: y :: ys else y :: insertRat x ys

/-- A list in rising order. -/
def sortRat (l : List Rat) : List Rat := l.foldr insertRat []

/-- The median: the middle sample, or the mean of the two middle ones (R176 states it for 8 samples). -/
def median (l : List Rat) : Option Rat :=
  let n := l.length
  if n = 0 then none
  else
    let s := sortRat l
    some ((nth s ((n - 1) / 2) 0 + nth s (n / 2) 0) / 2)

/-- INCR for a rate correction of `adj` ppb: round(nominal x (1 - adj x 1e-9)) (R170). -/
def incrFor (adj : Rat) : Nat := (ratRound ((Config.incrNominal : Rat) * (1 - adj / 1000000000))).toNat

/-- The servo's limit, 500,000 ppb (R170). -/
def servoLimit : Rat := 500000

/-- INCR and FREQ take the correction `adj` (R170, PTP.FREQ). -/
def setRate (adj : Rat) (s : State) : State :=
  (s.setFld PTP.INCR_INCR (incrFor adj)).setFld PTP.FREQ_ADJ_PPB (unsignedOf 32 (ratRound adj))

/-- The PTP servo's record replaced. -/
def State.setServo (s : State) (v : Servo) : State := { s with servo := v }

/-- Whether a path-step hold is in force (R177). -/
def State.pathHeld (s : State) : Bool :=
  match s.servo.holdEnd with
  | some e => decide (s.cyc < e)
  | none => false

/-- The lock decision after an applied sample (R171). -/
def lockAfter (theta : Rat) (s : State) : State :=
  let near : Bool := decide (ratAbs theta ≤ (s.fld PTP.SERVO_LOCK_NS : Rat))
  let t := s.setServo { s.servo with
    lockRun := if near then s.servo.lockRun + 1 else 0
    farRun := if near then 0 else s.servo.farRun + 1 }
  if 16 ≤ t.servo.lockRun ∧ t.fld PTP.STAT_STATE ≠ 2 then (t.setFld PTP.STAT_STATE 2).raise Pg.ptp 0
  else if 4 ≤ t.servo.farRun ∧ t.fld PTP.STAT_STATE = 2 then t.setFld PTP.STAT_STATE 1
  else t

/-- The handling of one offset sample by the servo (R170, R172, R173): refused beyond the jump threshold, else applied. -/
def applyOffset (theta : Rat) (s : State) : State :=
  let sv := s.servo
  if (s.fld PTP.JUMP_THRESH_NS : Rat) < ratAbs theta then
    let t := ((s.satFld PTP.STAT_REFUSED).raise Pg.ptp 2).setFld PTP.STAT_STATE 3
    let t := t.setFld PTP.STAT_HOLD_WHY (orBit (t.fld PTP.STAT_HOLD_WHY) 0)
    setRate sv.integ (t.setServo { sv with lockRun := 0, farRun := 0, lastSample := s.cyc })
  else
    let kp : Rat := (s.fld PTP.SERVO_KP : Rat) / 4096
    let ki : Rat := (s.fld PTP.SERVO_KI : Rat) / 4096
    let integ := ratClamp servoLimit (sv.integ + ki * theta)
    let adj := ratClamp servoLimit (integ + kp * theta)
    let t := s.setServo { sv with integ := integ, lastSample := s.cyc }
    let t := (setRate adj t).count 2 1 0
    let t := t.setFld PTP.STAT_HOLD_WHY (clearBit (t.fld PTP.STAT_HOLD_WHY) 0)
    let t := if t.fld PTP.STAT_STATE = 2 then t else t.setFld PTP.STAT_STATE 1
    lockAfter theta t

/-- The last offset as PTP.OFFSET_SEC and OFFSET_NS report it: whole seconds toward minus infinity, and the rest (R169). -/
def reportOffset (theta : Rat) (s : State) : State :=
  let sec := (theta / 1000000000).floor
  let rest := (theta - (sec : Rat) * 1000000000).floor
  let t := (s.setFld PTP.OFFSET_SEC_SEC (unsignedOf 48 sec)).setFld PTP.OFFSET_NS_NS rest.toNat
  t.wrapFld PTP.OFFSET_NS_SEQ

/-- Whether a sample whose earliest timestamp was taken at cycle `first` spans a host step (R174). -/
def State.spansStep (s : State) (first : Nat) : Bool :=
  match s.servo.stepAt with
  | some c => decide (first < c)
  | none => false

/-- A timestamp of the module in units of 2^-16 ns: its resolution is 0.25 ns, FRAC [13:0] being zero (R163). -/
def toResolution (t : Int) : Int := t - t % 16384

/-- Whether the hardware passes a PTP message of a port on (R164, R165): the port is ACTIVE and in no pattern test, so that its MAC receives (R191,
R201), it listens, the message is of the profile and the domain, and no near-end loop keeps the lands from the receiver (R199). -/
def State.hears (s : State) (port : Nat) (m : PtpFrom) : Bool :=
  s.portActive port && s.fld (LANE.TEST_GEN port) = 0 && bitAt (s.fld PTP.CFG_PORT_MASK) port && m.dot1as == (s.fld PTP.CFG_PROFILE = 1 : Bool) && m.domain.toNat = s.fld PTP.CFG_DOMAIN
    && !s.looped port

/-- Whether the active master's Sync interval is one that is accepted: 2^-7 s to 1 s (R164). -/
def State.syncAccepted (s : State) : Bool :=
  match s.servo.gm with
  | some (_, a) => decide (-7 ≤ a.syncLog ∧ a.syncLog ≤ 0)
  | none => true

/-- The offset theta of R169, in ns: t2 - t1 - c_s less the filtered delay and the port's static asymmetry (R178). Before the
filter is first seeded the path delay is taken as 0: the spec does not say (DESIGN CHOICE, log entry 90). -/
def offsetOf (port : Nat) (t1 t2 cs : Int) (s : State) : Rat :=
  ((toResolution t2 - t1 - cs : Int) : Rat) / 65536 - s.servo.delay.getD 0
    - (signedOf 32 (s.fld (TSU.ASYM_ASYM port)) : Rat) / 4

/-- OFFSET_SAMPLE (R169 to R173): formed and reported on the active port; in SERVO mode applied or refused, except in a
path-step hold. -/
def execOffsetSample (heard : PtpHeard) (t1 t2 cs : Int) (firstCyc : Nat) (s : State) : Out :=
  finish s <|
    if s.inService ∧ s.fld PTP.STAT_ACTIVE_PORT = heard.port.val ∧ s.hears heard.port.val heard.from' ∧ s.syncAccepted
        ∧ s.spansStep firstCyc = false then
      let theta := offsetOf heard.port.val t1 t2 cs s
      let t := reportOffset theta s
      if s.fld PTP.MODE_MODE = 1 ∧ s.pathHeld = false then applyOffset theta t else t
    else s

/-- A path step (R177): counted and raised; STATE becomes HOLD, INCR stays at the integrator's value (R172) and offsets are held for PD_HOLD
seconds. In SOFTWARE mode STATE is FREE, and in REF mode HOLDOVER while the input is not qualified (R182). -/
def declarePathStep (s : State) : State :=
  let t := (s.raise Pg.ptp 3).satFld PTP.STAT_PATH_STEPS
  let t := if t.fld PTP.MODE_MODE = 1 ∨ (t.fld PTP.MODE_MODE = 2 ∧ t.fld REF.STAT_STATE = 2) then
      setRate t.servo.integ (t.setFld PTP.STAT_STATE 3) else t
  let t := t.setFld PTP.STAT_HOLD_WHY (orBit (t.fld PTP.STAT_HOLD_WHY) 1)
  t.setServo { t.servo with
    holdEnd := some (t.cyc + msCyc 1000 * t.fld PTP.PD_HOLD_S), holdSamples := [], lockRun := 0, farRun := 0 }

/-- PTP.PATH shows the filtered mean path delay in units of 0.25 ns; it is unsigned, and of a negative delay it shows 0 (DESIGN CHOICE, log entry
90). -/
def showDelay (s : State) : State := s.setFld PTP.PATH_DELAY ((s.servo.delay.getD 0 * 4).floor.toNat)

/-- Whether the median of the last 8 delay samples departs from the filter by more than PD_STEP (R177). -/
def State.pathDeparts (s : State) : Bool :=
  match s.servo.delay, median s.servo.last8 with
  | some d, some m => s.servo.last8.length = 8 && decide ((s.fld PTP.PD_STEP_NS : Rat) < ratAbs (m - d))
  | _, _ => false

/-- The delay sample of R169, in ns: end to end under profile 0, the mean link delay under profile 1. -/
def delayOf (t1 t2 t3 t4 cs cd linkDelay : Int) (s : State) : Rat :=
  if s.fld PTP.CFG_PROFILE = 0 then (((toResolution t2 - t1 - cs) + (t4 - toResolution t3 - cd) : Int) : Rat) / 65536 / 2
  else (linkDelay : Rat) / 65536

/-- The neighbour on a port after a Pdelay exchange (R165, IEEE 802.1AS): the rate ratio from two successive exchanges' t3 and t4; once an
exchange is complete the port is asCapable (PRESUMED, log entry 90). -/
def Neighbour.after (r : Neighbour) (t3 t4 : Int) : Neighbour :=
  { t3 := t3, t4 := t4, capable := true, ratio := if r.capable ∧ t4 ≠ r.t4 then ((t3 - r.t3 : Int) : Rat) / ((t4 - r.t4 : Int) : Rat) else r.ratio }

/-- A Pdelay exchange on a port under profile 1. -/
def noteNeighbour (port : Nat) (t3 t4 : Int) (s : State) : State :=
  if s.fld PTP.CFG_PROFILE ≠ 1 then s
  else s.setServo { s.servo with neighbours := Store.put s.servo.neighbours {} port ((Store.at s.servo.neighbours {} port).after t3 t4) }

/-- A delay sample from the active port (R176, R177): the filter is seeded with the median of the first 8 and then moves by a sixteenth of each
difference; a departing median declares a path step unless a hold is already in force. -/
def takeDelay (d : Rat) (s : State) : State :=
  let last8 := (d :: s.servo.last8).take 8
  let filt := match s.servo.delay with
    | some f => some (f + (d - f) / 16)
    | none => if last8.length = 8 then median last8 else none
  let t := showDelay <| s.setServo { s.servo with
    delay := filt, last8 := last8
    holdSamples := if s.servo.holdEnd.isSome then d :: s.servo.holdSamples else [] }
  if t.servo.holdEnd = none ∧ t.pathDeparts then declarePathStep t else t

/-- DELAY_SAMPLE (R165, R176, R177): an exchange completes on a listening port; on the active one it gives a delay sample. -/
def execDelaySample (heard : PtpHeard) (t1 t2 t3 t4 cs cd linkDelay : Int) (firstCyc : Nat) (s : State) : Out :=
  finish s <|
    if s.inService = false ∨ s.hears heard.port.val heard.from' = false ∨ s.spansStep firstCyc then s
    else
      let t := noteNeighbour heard.port.val t3 t4 s
      if s.fld PTP.STAT_ACTIVE_PORT = heard.port.val then takeDelay (delayOf t1 t2 t3 t4 cs cd linkDelay s) t else t

/-- PATH_HOLD_END (R177): the hold's end is reached; the filter is reseeded with the median of the hold's samples. Of a hold without samples the spec
gives no median, and the filter stays (DESIGN CHOICE, log entry 90). -/
def execPathHoldEnd (s : State) : Out :=
  finish s <|
    match s.servo.holdEnd with
    | none => s
    | some e =>
      if s.cyc < e then s
      else
        let t := s.setServo { s.servo with
          holdEnd := none, holdSamples := []
          delay := match median s.servo.holdSamples with
            | some m => some m
            | none => s.servo.delay }
        let t := showDelay (t.setFld PTP.STAT_HOLD_WHY (clearBit (t.fld PTP.STAT_HOLD_WHY) 1))
        if t.pathDeparts then declarePathStep t else t

/-- The order of IEEE 1588's data set comparison, as a list compared from its head: lower is better (R165). -/
def announceKey (a : Announce) : List Nat :=
  [a.priority1, a.clockClass, a.accuracy, a.variance, a.priority2, a.identity.toNat, a.stepsRemoved, a.portNumber.toNat]

/-- Whether key `a` comes before key `b`. -/
def keyBefore : List Nat → List Nat → Bool
  | a :: as, b :: bs => if a < b then true else if b < a then false else keyBefore as bs
  | _, _ => false

/-- The best of the masters heard on the listening ports (R165). -/
def bestMaster : List (Nat × Announce) → Option (Nat × Announce)
  | [] => none
  | m :: ms =>
    match bestMaster ms with
    | none => some m
    | some b => if keyBefore (announceKey b.2) (announceKey m.2) then some b else some m

/-- A change of the active port or grandmaster (R166): raised, counted and handled as a path step. -/
def masterChange (s : State) : State :=
  declarePathStep ((s.raise Pg.ptp 5).satFld PTP.STAT_MASTER_CHANGES)

/-- The selected master as PTP.STAT and GM_ID0 to GM_ID1 report it. -/
def showMaster (m : Nat × Announce) (s : State) : State :=
  let id := m.2.identity.toNat
  let t := s.setFld PTP.STAT_ACTIVE_PORT m.1
  let t := t.setFld PTP.GM_ID0_ID_HI (id / 65536)
  let t := t.setFld PTP.GM_ID1_ID_LO (id % 65536)
  t.setFld PTP.GM_ID1_PORT m.2.portNumber.toNat

/-- Whether the selection differs in port or grandmaster. -/
def sameMaster : Option (Nat × Announce) → Option (Nat × Announce) → Bool
  | some a, some b => a.1 = b.1 && a.2.identity = b.2.identity
  | none, none => true
  | _, _ => false

/-- Whether a port's foreign master is a candidate: the port listens, and under IEEE 802.1AS it is asCapable (R165). -/
def State.candidate (s : State) (port : Nat) : Bool :=
  bitAt (s.fld PTP.CFG_PORT_MASK) port && (s.fld PTP.CFG_PROFILE = 0 || (Store.at s.servo.neighbours {} port).capable)

/-- The interval between a master's Announce messages in TIME_CLK cycles. -/
def announceCycles (a : Announce) : Nat :=
  if a.intervalLog < 0 then msCyc 1000 / 2 ^ (-a.intervalLog).toNat else msCyc 1000 * 2 ^ a.intervalLog.toNat

/-- Whether a foreign master's Announce has timed out: 3 intervals without another (R164). -/
def State.silent (s : State) (m : Foreign) : Bool := decide (m.at0 + 3 * announceCycles m.data ≤ s.cyc)

/-- The foreign masters become `masters`, and the best of the candidates the grandmaster, its port the active port (R165); the second component
says whether the selection changed (R166). -/
def selectMaster (masters : List Foreign) (s : State) : State × Bool :=
  let best := bestMaster ((masters.filter (fun m => s.candidate m.port)).map (fun m => (m.port, m.data)))
  let t := s.setServo { s.servo with masters := masters, gm := best }
  match best with
  | none => (t, false)
  | some m => (showMaster m t, !sameMaster s.servo.gm best)

/-- The foreign masters after an Announce on a port from its sender; without one, those of the port that have timed out are forgotten. -/
def heardMasters (port : Nat) (data : Option Announce) (s : State) : List Foreign :=
  match data with
  | some a => { port := port, data := a, at0 := s.cyc } :: s.servo.masters.filter (fun m => !(m.port = port && m.data.sender = a.sender))
  | none => s.servo.masters.filter (fun m => !(m.port = port && s.silent m))

/-- ANNOUNCE_RECEIVE (R164 to R166): a foreign master of the port is updated (`none`: an Announce receipt time ran out), and the best master of all
those heard on the listening ports is selected. -/
def execAnnounceReceive (heard : PtpHeard) (data : Option Announce) (s : State) : Out :=
  finish s <|
    if s.inService ∧ (data = none ∨ s.hears heard.port.val heard.from') then
      let r := selectMaster (heardMasters heard.port.val data s) s
      if r.2 then masterChange r.1 else r.1
    else s

/-- The Sync interval of the active master in TIME_CLK cycles (R164, R167). -/
def State.syncCycles (s : State) : Nat :=
  match s.servo.gm with
  | some (_, a) => if a.syncLog < 0 then msCyc 1000 / 2 ^ (-a.syncLog).toNat else msCyc 1000 * 2 ^ a.syncLog.toNat
  | none => 0

/-- Entry to HOLDOVER (R167, R172): INCR at the integrator's value, HOLDOVER raised. The run of samples that R171 counts goes on, since no sample is
applied in it: the spec does not say (DESIGN CHOICE, log entry 90). -/
def enterHoldover (s : State) : State :=
  if s.fld PTP.STAT_STATE = 4 then s
  else setRate s.servo.integ ((s.setFld PTP.STAT_STATE 4).raise Pg.ptp 1)

/-- SOURCE_LOST (R167): the time processor declares loss of master, or 8 Sync intervals passed without a sample. -/
def execSourceLost (declared : Bool) (s : State) : Out :=
  finish s <|
    if s.inService ∧ (declared ∨ (s.servo.gm.isSome ∧ s.servo.lastSample + 8 * s.syncCycles ≤ s.cyc))
        ∧ s.fld PTP.MODE_MODE = 1 then enterHoldover s
    else s

/-- PLL_LOSS (R157): READY becomes HALTED; after the keeper PLL's loss VALID reads 0 until the next host step. -/
def execPllLoss (root keeper : Bool) (s : State) : Out :=
  finish s <|
    if s.pwr.aux ∧ (keeper ∨ (root ∧ s.pwr.core)) then
      let t := s.record 0x04 7 (b2n root + 2 * b2n keeper) 0
      let t := t.raise Pg.kpr 4
      let t := { t with
        valid := t.valid && !keeper
        clk := { t.clk with keeperPll := t.clk.keeperPll && !keeper, rootPll := t.clk.rootPll && !root } }
      halt t
    else s

/-! ### REF_IN (R179 to R182) -/

/-- The period in ps of a rate code of REF.CFG.RATE, as a numerator and denominator (R181: 1001-divided rates exactly). -/
def refPeriod : Nat → Nat × Nat
  | 0 => (100000, 1)
  | 1 => (1000000000000, 1)
  | 2 => (1001 * 1000000000, 24)
  | 3 => (1000000000000, 24)
  | 4 => (1000000000000, 25)
  | 5 => (1001 * 1000000000, 30)
  | 6 => (1000000000000, 30)
  | 7 => (1000000000000, 50)
  | 8 => (1001 * 1000000000, 60)
  | 9 => (1000000000000, 60)
  | 10 => (1000000000000, 100)
  | 11 => (1001 * 1000000000, 120)
  | _ => (1000000000000, 120)

/-- Whether `p` ps lies within 100 ppm of num / den ps. -/
def within100ppm (p num den : Nat) : Bool :=
  let d := if num ≤ p * den then p * den - num else num - p * den
  decide (d * 10000 ≤ num)

/-- Whether a measured period is in tolerance at a rate (R179). -/
def refInTolerance (rate : Nat) (p : Nat) : Bool := within100ppm p (refPeriod rate).1 (refPeriod rate).2

/-- The rate code a period shows: 14 for none listed, 15 for no edge (REF.STAT.SEEN). -/
def refSeen : Option Nat → Nat
  | none => 15
  | some p => ((List.range 13).find? (fun r => refInTolerance r p)).getD 14

/-- One measurement period of a monitor: the runs after it (R180). `len` is the period's length in ps. -/
def Monitor.after (m : Monitor) (ok : Bool) (len : Nat) : Monitor :=
  if ok then { bad := 0, good := m.good + len } else { bad := m.bad + 1, good := 0 }

/-- The length a period of REF_IN lasts, in ps: a 1 ms window at 10 MHz, else the measured interval (R179). -/
def refLength (rate : Nat) (p : Option Nat) : Nat := if rate = 0 then 1000000000 else p.getD 0

/-- REF_PERIOD_END (R179, R180): the period is judged; the third bad one in a row declares the input lost, and in REF mode the
servo holds over. -/
def execRefPeriodEnd (periodPs : Option Nat) (s : State) : Out :=
  finish s <|
    if s.inService ∧ s.fld REF.CFG_ENABLE = 1 then
      let rate := s.fld REF.CFG_RATE
      let ok := match periodPs with
        | some p => refInTolerance rate p
        | none => false
      let t := { s with refMon := s.refMon.after ok (refLength rate periodPs) }
      let t := t.setFld REF.STAT_SEEN (refSeen periodPs)
      let t := if ok then t else t.satFld REF.STAT_BAD_PERIODS
      if t.refMon.bad = 3 ∧ t.fld REF.STAT_STATE ≠ 3 then
        let t := ((t.setFld REF.STAT_STATE 3).satFld REF.STAT_LOSSES).raise Pg.ref 1
        if t.fld PTP.MODE_MODE = 2 then enterHoldover t else t
      else t
    else s

/-- REF_QUALIFIED (R180): 2 s in tolerance have passed on an input that is qualifying or lost. -/
def execRefQualified (s : State) : Out :=
  finish s <|
    if s.inService ∧ s.fld REF.CFG_ENABLE = 1 ∧ (s.fld REF.STAT_STATE = 1 ∨ s.fld REF.STAT_STATE = 3)
        ∧ 2000000000000 ≤ s.refMon.good then
      (s.setFld REF.STAT_STATE 2).raise Pg.ref 0
    else s

/-- The counter's distance from the nearest multiple of `num / den` ps, in ns, in (-period/2, period/2] (R181). -/
def refOffset (ctr num den : Nat) : Rat :=
  let now : Rat := (ctr : Rat) / (Config.unitsPerNs : Rat)
  let p : Rat := (num : Rat) / (den : Rat) / 1000
  let k := (now / p).floor
  let r := now - (k : Rat) * p
  if p / 2 < r then r - p else r

/-- REF_EDGE_OFFSET (R181, R173): in REF mode the offset at a qualified edge is shown in REF.PHASE and handled under R170: in a path-step hold it is
reported alone. -/
def execRefEdgeOffset (s : State) : Out :=
  finish s <|
    if s.inService ∧ s.fld PTP.MODE_MODE = 2 ∧ s.fld REF.STAT_STATE = 2 ∧ s.refMon.bad = 0 then
      let p := refPeriod (s.fld REF.CFG_RATE)
      let theta := refOffset s.ctr p.1 p.2
      let t := s.setFld REF.PHASE_PHASE (unsignedOf 32 (theta * 4).floor)
      if s.pathHeld then t else applyOffset theta t
    else s

/-- A commit of REF.CFG: a changed configuration restarts qualification (R180, R182). -/
def refRestart (s : State) : State :=
  let t := { s with refMon := {} }
  let t := t.setFld REF.STAT_STATE (s.fld REF.CFG_ENABLE)
  if t.fld PTP.MODE_MODE = 2 then enterHoldover t else t

/-! ### Writes of PTP's registers (R159, R166, R168, R174) -/

/-- The frequency correction in ppb that an INCR represents (R168). -/
def ppbOfIncr (incr : Nat) : Rat := (1 - (incr : Rat) / (Config.incrNominal : Rat)) * 1000000000

/-- An accepted write of PTP.MODE (R168, R182): on entry to SERVO or REF the integrator takes INCR's frequency. -/
def ptpModeSet (mode : Nat) (s : State) : State :=
  let t := s.setFld PTP.MODE_MODE mode
  if s.fld PTP.MODE_MODE = mode then t
  else if mode = 0 then t.setFld PTP.STAT_STATE 0
  else
    let t := t.setServo { t.servo with
      integ := ppbOfIncr (s.fld PTP.INCR_INCR), lockRun := 0, farRun := 0, lastSample := s.cyc }
    let t := t.setFld PTP.STAT_STATE 1
    if mode = 2 ∧ t.fld REF.STAT_STATE ≠ 2 then enterHoldover t else t

/-- An accepted write of PTP.INCR in SOFTWARE mode (R159, R168). -/
def ptpIncrSet (incr : Nat) (s : State) : State :=
  (s.setFld PTP.INCR_INCR incr).setFld PTP.FREQ_ADJ_PPB (unsignedOf 32 (ratRound (ppbOfIncr incr)))

/-- An accepted write of PTP.CFG, `old` before it: masters of ports that no longer listen are no candidates, those of another profile or domain
are forgotten (R165), and the best of the rest is selected. In SERVO mode the write is handled as a master change (R166). -/
def ptpCfgSet (old : Reg) (s : State) : State :=
  let other := decide (bitsOf old 32 8 ≠ s.fld PTP.CFG_DOMAIN ∨ bitsOf old 0 2 ≠ s.fld PTP.CFG_PROFILE)
  let r := selectMaster (if other then [] else s.servo.masters.filter (fun m => bitAt (s.fld PTP.CFG_PORT_MASK) m.port)) s
  if s.fld PTP.MODE_MODE = 1 ∨ r.2 then masterChange r.1 else r.1

/-- The counter moved by a host step of `sec` s and `n` ns, and VALID set (R174). Motion below zero wraps at 2^48 s. -/
def stepCounter (neg : Bool) (sec n : Nat) (s : State) : State :=
  let d := sec * Config.unitsPerSec + ns n
  let m := 2 ^ 48 * Config.unitsPerSec
  { s with
    ctr := if neg then (s.ctr + m - d % m) % m else (s.ctr + d) % m
    valid := true
    servo := { s.servo with
      stepAt := some s.cyc
      stepCross := !neg && decide (secOf s.ctr < secOf (s.ctr + d)) } }

end Sys2Proof.Machine
end

