-- ==== Sys2Proof/Machine/Operands.lean ====
section
/-!
DEFINITION. Machine/Operands.lean: what commands name (pictures, stripes, outputs) turned into sizes and instants: picture
geometry, grid points, capture times and stripe periods (R1, R2, R4, R12, R216, R365).
-/
namespace Sys2Proof.Machine

/-- Width of a substream's picture by CHINn.FMT.SIZE (R212). -/
def widthOf : Nat → Nat
  | 0 => 7680 | 1 => 3840 | _ => 1920

/-- Active lines of a substream's picture by CHINn.FMT.SIZE (R212). -/
def linesOf : Nat → Nat
  | 0 => 4320 | 1 => 2160 | _ => 1080

/-- Substreams of a slot by CHINn.FMT.SIZE (R12). -/
def substreamsOf : Nat → Nat
  | 0 => 1 | 1 => 4 | _ => 16

/-- CTU height, which is the stripe height (R6). -/
def ctuHeight (ctu32 : Bool) : Nat := if ctu32 then 32 else 64

/-- Stripes of a picture of `lines` lines (R12). -/
def stripesOf (lines : Nat) (ctu32 : Bool) : Nat := ceilDiv lines (ctuHeight ctu32)

/-- CTUs across a picture. -/
def ctusAcross (width : Nat) (ctu32 : Bool) : Nat := ceilDiv width (ctuHeight ctu32)

/-- FMT.SIZE of a slot. -/
def State.size (s : State) (slot : Nat) : Nat := s.fld (CHIN.FMT_SIZE slot)

/-- FMT.RATE of a slot. -/
def State.rate (s : State) (slot : Nat) : Nat := s.fld (CHIN.FMT_RATE slot)

/-- Active lines of a slot's substreams. -/
def State.lines (s : State) (slot : Nat) : Nat := linesOf (s.size slot)

/-- The instant `x2` half lines after grid point `k`, in the counter's units, at a rate and a number of active lines: the first
instant of the counter's resolution at or after it. A stripe of h lines lasts 2h half lines (R1, R2, R216). -/
def instantAt (rate lines k x2 : Nat) : Nat :=
  let p := refPeriod rate
  ceilDiv ((k * (2 * lines) + x2) * p.1 * Config.unitsPerNs) (2 * lines * p.2 * 1000)

/-- Grid point `k`: the capture time of the picture there (R216). -/
def gridAt (rate k : Nat) : Nat := instantAt rate 1 k 0

/-- The capture time of stripe `j` of the picture at grid point `k` of a slot (R2). -/
def State.stripeAt (s : State) (slot k j : Nat) (ctu32 : Bool) : Nat :=
  instantAt (s.rate slot) (s.lines slot) k (2 * j * ctuHeight ctu32)

/-- The close of the stripe's arrival window, one stripe period after its capture time (R11, R219). -/
def State.windowClose (s : State) (slot k j : Nat) (ctu32 : Bool) : Nat := s.stripeAt slot k (j + 1) ctu32

/-- The grid point nearest an instant: floor((2 t + P) / (2 P)) in exact arithmetic (R216). -/
def nearestGrid (rate t : Nat) : Nat :=
  let p := refPeriod rate
  let num := p.1 * Config.unitsPerNs
  let den := p.2 * 1000
  (2 * t * den + num) / (2 * num)

/-- The first grid point at or after an instant. -/
def gridFrom (rate t : Nat) : Nat :=
  let p := refPeriod rate
  ceilDiv (t * (p.2 * 1000)) (p.1 * Config.unitsPerNs)

/-- The instant nearest `now` whose 90 kHz count modulo 2^32 is `rtp` (R216): `now` itself inside the tick, else the tick's
nearer end. -/
def rawTime (now rtp : Nat) : Nat :=
  let lo (n : Nat) : Nat := ceilDiv (n * Config.unitsPerSec) 90000
  let c := now * 90000 / Config.unitsPerSec
  let back := (c + 2 ^ 32 - rtp % 2 ^ 32) % 2 ^ 32
  let below := c - back
  let above := c + 2 ^ 32 - back
  let n := if back ≤ c ∧ (now : Int) - lo (below + 1) ≤ (lo above : Int) - now then below else above
  if now < lo n then lo n else if lo (n + 1) ≤ now then lo (n + 1) - 1 else now

/-- Whether an instant lies more than 11.2 µs from a grid point (R216). -/
def offGrid (t g : Nat) : Bool := decide (ns 11200 < (if t ≤ g then g - t else t - g))

/-- The pixel rate of a slot's format as a fraction: width x height x rate over all its substreams (R16). -/
def pixelRate (size rate : Nat) : Nat × Nat :=
  let p := refPeriod rate
  (widthOf size * linesOf size * substreamsOf size * p.2 * 1000000000000, p.1)

/-! ### Outputs by number (R365) -/

/-- The contribution output of a substream. -/
def contribution (slot sub : Nat) : Nat := 16 * slot + sub

/-- The proxy output of a slot. -/
def proxyOut (slot : Nat) : Nat := 128 + slot

/-- The mezzanine output of a substream. -/
def mezzanine (slot sub : Nat) : Nat := 136 + 16 * slot + sub

/-- Whether an output number names a proxy. -/
def isProxy (o : Nat) : Bool := 128 ≤ o ∧ o < 136

/-- Whether an output number names a mezzanine output. -/
def isMezz (o : Nat) : Bool := 136 ≤ o

/-- The slot of an output. -/
def outSlot (o : Nat) : Nat := if o < 128 then o / 16 else if o < 136 then o - 128 else (o - 136) / 16

/-- The substream of an output; a proxy's is the one PAFn.PROXY names. -/
def State.outSub (s : State) (o : Nat) : Nat :=
  if o < 128 then o % 16 else if o < 136 then s.fld (PAF.PROXY_SUBSTREAM (o - 128)) else (o - 136) % 16

/-- Whether an output runs: its RUN in effect, and for a mezzanine output a grid (R304, R305, R341 step 2). -/
def State.outRuns (s : State) (o : Nat) : Bool :=
  if o < 128 then s.fld (STC.OUT_RUN (o / 16) (o % 16)) = 1
  else if o < 136 then s.fld (STC.PROXY_OUT_RUN (o - 128)) = 1
  else
    let n := (o - 136) / 16
    let k := (o - 136) % 16
    s.fld (STC.MZOUT_RUN n k) = 1 && s.fld (STC.MZOUT_COLS n k) != 0 && s.fld (STC.MZOUT_ROWS n k) != 0

/-- An output's D, in its stripe periods (R4, R17). -/
def State.outD (s : State) (o : Nat) : Nat :=
  if o < 128 then s.fld (STC.OUT_D (o / 16) (o % 16))
  else if o < 136 then s.fld (STC.PROXY_OUT_D (o - 128))
  else s.fld (STC.MZOUT_D ((o - 136) / 16) ((o - 136) % 16))

/-- An output's D in stripe periods of a CTU size, the other one than in force for pictures of the Span before (R17, R21). -/
def State.outDAs (s : State) (o : Nat) (ctu32 : Bool) : Nat :=
  let now := decide (s.fld DSP.SPAN_STAT_CTU32 = 1)
  if ctu32 = now then s.outD o else if ctu32 then 2 * s.outD o else s.outD o / 2

/-- The running outputs, by number. -/
def State.running (s : State) : List Nat := (List.range 264).filter (fun o => s.outRuns o)

/-- Whether a slot has a running output. -/
def State.slotServes (s : State) (slot : Nat) : Bool := s.running.any (fun o => outSlot o = slot)

/-- The record of a channel slot. -/
def State.slot (s : State) (n : Nat) : Slot := Store.at s.slots {} n

/-- That record replaced. -/
def State.setSlot (s : State) (n : Nat) (v : Slot) : State := { s with slots := Store.put s.slots {} n v }

/-- When a slot's reception begins, in counter units: at its start, and for a slot started while a Span change is pending at the boundary
found for it or after (R23). -/
def State.slotStart (s : State) (n : Nat) : Nat :=
  let r := s.slot n
  if r.waits then max r.startCtr (s.span.boundary.getD 0) else r.startCtr

/-- Whether a slot runs: it is in ACQUIRE, RUNNING or FORMAT_LOST (R230, R231). -/
def State.slotRuns (s : State) (slot : Nat) : Bool := s.fld (CHIN.STAT_STATE slot) ≠ 0

/-- The CTU size in force for a picture captured at `cap`: a pending Span change applies from its boundary on (R18, R21). -/
def State.ctuAt (s : State) (cap : Nat) : Bool :=
  match s.span.boundary with
  | some t => if s.span.pending ∧ t ≤ cap then s.span.ctu32 else s.fld DSP.SPAN_STAT_CTU32 = 1
  | none => s.fld DSP.SPAN_STAT_CTU32 = 1

/-- The ENG_CLK frequency in Hz (R154, R155). -/
def State.engHz (s : State) : Nat := if s.fld DSP.SPAN_STAT_CURRENT = 2 then 900000000 else 1200000000

/-! ### Statistics of a picture (R455) -/

/-- The record of the picture of `slot` at grid point `k`. -/
def State.statsAt (s : State) (slot k : Nat) : PicStats := Store.at s.stats {} (slot + 8 * k)

/-- That record replaced. -/
def State.setStats (s : State) (slot k : Nat) (p : PicStats) : State :=
  { s with stats := Store.put s.stats {} (slot + 8 * k) p }

/-- That record changed. -/
def State.onStats (s : State) (slot k : Nat) (f : PicStats → PicStats) : State := s.setStats slot k (f (s.statsAt slot k))

/-- That record changed when output `o` is the one STAT_SEL named for the picture (R456). -/
def State.onSelStats (s : State) (slot k o : Nat) (f : PicStats → PicStats) : State :=
  if (s.statsAt slot k).selRan ∧ (s.statsAt slot k).sel = o then s.onStats slot k f else s

/-! ### HBM as reads return it (R413, R422) -/

/-- The pseudo-channel, 0 to 63, that serves an HBM address (R413). -/
def pcOf (addr : Nat) : Nat :=
  (addr / 2 ^ 12 % 64) ^^^ (addr / 2 ^ 18 % 64) ^^^ (addr / 2 ^ 24 % 64) ^^^ (addr / 2 ^ 30 % 32)

/-- Where an HBM address lands (R413). -/
structure HbmPlace where
  stack   : Nat
  channel : Nat
  pseudo  : Nat
  group   : Nat
  bank    : Nat
  row     : Nat
  column  : Nat
  byte    : Nat
deriving DecidableEq, Repr

/-- The stack, channel and pseudo-channel that serve an HBM address, the port group, and its bank, row, column and byte there (R413). -/
def hbmPlace (a : Nat) : HbmPlace :=
  let k := pcOf a
  { stack := k / 32, channel := k / 2 % 16, pseudo := k % 2, group := k / 8
    bank := 4 * (a / 2 ^ 10 % 4) + a / 2 ^ 18 % 4, row := a / 2 ^ 20, column := a / 2 ^ 5 % 32, byte := a % 32 }

/-- Where a Gallery offset lies (R427): the bank group, the bank of it, the 64-bit word of the bank and the byte of the word. -/
structure GalleryPlace where
  group : Nat
  bank  : Nat
  word  : Nat
  byte  : Nat
deriving DecidableEq, Repr

/-- The place of a Gallery offset (R427). -/
def galleryPlace (g : Nat) : GalleryPlace :=
  { group := g / 2 ^ 22 % 16, bank := g / 2 ^ 5 % 16, word := g / 2 ^ 9 % 2 ^ 13 * 4 + g / 2 ^ 3 % 4, byte := g % 8 }

/-- The port of every Gallery bank group that a master uses (R427). -/
def galleryPort (master : Nat) : Nat := master % 2

/-- Which port a bank serves first when both need it in one cycle (R427): that of the older request, port 0 at equal ages. `since0` and `since1` are
the cycles in which the requests were made. -/
def portServed (since0 since1 : Nat) : Nat := if since1 < since0 then 1 else 0

/-- The cycles that a port's request waits for the other's (R427). -/
def portWait (port since0 since1 : Nat) : Nat := if portServed since0 since1 = port then 0 else 1

/-- GAL.CONFLICTS' increment for pairs of requests that met at a bank. -/
def conflicts (l : List (Nat × Nat)) : Nat := (l.map (fun e => portWait 0 e.1 e.2 + portWait 1 e.1 e.2)).foldl (· + ·) 0

/-- A pseudo-channel's record. -/
def State.pc (s : State) (k : Nat) : Pc := Store.at s.pcs {} k

/-- Bytes with the enabled ones of `mask` taken from `new`. -/
def overlay (n mask : Nat) (new old : List Byte) : List Byte :=
  (List.range n).map (fun i => if bitAt mask i then nth new i 0 else nth old i 0)

/-- The entry of a beat in its pseudo-channel's queue. -/
def State.wqEntry (s : State) (beat : Nat) : Option WqEntry := (s.pc (pcOf (32 * beat))).wq.find? (fun e => e.beat = beat)

/-- The 32 bytes of a beat as every later read returns them: the queued bytes over the stack's (R422). -/
def State.beat (s : State) (b : Nat) : List Byte :=
  let old := Memory.read s.hbm (32 * b) 32
  match s.wqEntry b with
  | some e => overlay 32 e.mask e.data old
  | none => old

/-- Whether a failing beat of a pseudo-channel waits for its second read (R360). -/
def State.rereadWaits (s : State) (k : Nat) : Bool := s.rereads.any (fun b => pcOf (32 * b) = k)

/-- Both pseudo-channels of a channel have been idle for IDLE_US (R419). -/
def State.channelIdle (s : State) (c : Nat) : Bool :=
  let a := s.pc (2 * c)
  let b := s.pc (2 * c + 1)
  let wait := usCyc (if a.busyAt < b.busyAt then b.wait else a.wait)
  s.fld (HBM.SR_CFG_EN (c / 16)) = 1 && a.sr = 0 && b.sr = 0 && a.debt = 0 && b.debt = 0 && a.wq = [] && b.wq = []
    && !s.rereadWaits (2 * c) && !s.rereadWaits (2 * c + 1) && decide (max a.busyAt b.busyAt + wait ≤ s.cyc)

/-- Whether the refreshes owed go ahead of every read and write not yet issued (R416): URGENT, PAYBACK, or a debt of 8. -/
def Pc.refreshFirst (p : Pc) : Bool := p.urgent || p.payback || decide (p.debt = 8)

/-- Whether a read of a pseudo-channel is served now: no owed refresh and no second read goes ahead of it (R360, R416, R418). -/
def State.readsServed (s : State) (k : Nat) : Bool := !(s.pc k).refreshFirst && !s.rereadWaits k

/-- Whether the port of a pseudo-channel accepts writes now: not in URGENT, and not while the queue is full (R418, R421). -/
def State.writesTaken (s : State) (k : Nat) : Bool := !(s.pc k).urgent && decide ((s.pc k).wq.length < 64)

/-- The pseudo-channels that `n` bytes from an address touch: 1 KiB rows lie in one each (R413). -/
def touched (addr n : Nat) : List Nat :=
  if n = 0 then [] else ((List.range ((addr + n - 1) / 1024 + 1 - addr / 1024)).map (fun i => pcOf (1024 * (addr / 1024 + i)))).eraseDups

/-- Whether every read, or every write, of `n` bytes from an address gets through; else the master stalls and nothing happens yet. -/
def State.readable (s : State) (addr n : Nat) : Bool := (touched addr n).all s.readsServed
def State.writable (s : State) (addr n : Nat) : Bool := (touched addr n).all s.writesTaken

/-- Bursts of an access of `n` bytes that lie in a channel, with bursts of 512 B (R130), of which a master has at most 64 outstanding (R131). -/
def burstsIn (c addr n : Nat) : Nat :=
  if n = 0 then 0
  else min 64 ((List.range ((addr + n - 1) / 512 + 1 - addr / 512)).filter (fun i => pcOf (512 * (addr / 512 + i)) / 2 = c)).length

/-- The Maximum Payload Size in bytes (R93). -/
def State.mps (s : State) : Nat := 128 * 2 ^ s.pci.payload

/-- EP of each TLP that carries `n` bytes to address `to'`, TLPs as long as the Maximum Payload Size and cut at its multiples: set where a beat that
the TLP carries is poisoned (R360). The bytes begin at HBM address `hbm`, whose beats' poison `bad` gives. -/
def epOf (mps to' n hbm : Nat) (bad : List Bool) : List Bool :=
  if n = 0 then []
  else (List.range ((to' + n - 1) / mps + 1 - to' / mps)).map (fun i =>
    let lo := max to' ((to' / mps + i) * mps) - to'
    let hi := min (to' + n) ((to' / mps + i + 1) * mps) - to'
    let first := (hbm + lo) / 32 - hbm / 32
    ((bad.drop first).take ((hbm + hi - 1) / 32 - (hbm + lo) / 32 + 1)).any id)

/-- `n` bytes of HBM as reads return them. -/
def State.hbmBytes (s : State) (addr n : Nat) : List Byte :=
  (((List.range ((addr + n + 31) / 32 - addr / 32)).map (fun i => s.beat (addr / 32 + i))).flatten.drop (addr % 32)).take n

/-! ### Concourse masters (R127, R146, R147) -/

/-- A master's record. -/
def State.master (s : State) (m : Nat) : Master := Store.at s.masters {} m

/-- A master's record replaced. -/
def State.setMaster (s : State) (m : Nat) (r : Master) : State := { s with masters := Store.put s.masters {} m r }

/-- Whether master `m` is under a master reset: its engine is given no task (R112, R147). -/
def State.inReset (s : State) (m : Nat) : Bool := (s.master m).draining && (s.master m).byReset

/-- Whether master `m` gets no request through: it is frozen, or a master reset drains it. The drain of a retired bay leaves the unit and
the floor path beside it in service (R128, R142, R146). -/
def State.stopped (s : State) (m : Nat) : Bool := s.frozen m || (s.inReset m && !(s.master m).bayOnly)

/-- Whether a master's requests enter the Concourse: no drain refuses them, and it is not frozen; a freeze of the PCIe port stops its writes
alone (R142, R143, R146). -/
def State.issues (s : State) (m : Nat) : Bool :=
  s.pwr.core && (m = 28 || !s.frozen m) && !((s.master m).draining && !(s.master m).bayOnly)

/-- A response other than OKAY to master `m` is counted (FAB.Mm_STAT.ERRORS). -/
def countError (m : Nat) (s : State) : State := s.satFld (FAB.M_STAT_ERRORS m)

/-- A drain of master `m` begins (R146). How many transactions are outstanding then is a free value, 0 to 64 (R131). -/
def drain (m : Nat) (r : Master) (s : State) : State :=
  let (w, t) := s.freeWord
  t.setMaster m { r with draining := true, outstanding := w.toNat % 65 }

/-- The event and class of a master's freeze (R127, R142, R143). -/
def freezeEvent (m : Nat) : Nat × Nat :=
  if m = 28 then (2, 6) else if m < 24 ∨ m = 30 then (1, 4) else (4, 7)

end Sys2Proof.Machine
end

