-- ==== Sys2Proof/Machine/Convert.lean ====
section
/-!
DEFINITION. Machine/Convert.lean: the settings that serve each picture's copies, and the conversion of lines: range, matrix, tables of
33 x 33 x 33 nodes, sampling, scaling and rounding (spec 09 R243 to R249, 14 R358).
-/
namespace Sys2Proof.Machine

/-! ### Samples as bytes (R212, R234) -/

/-- Samples of `w` bits packed most significant bit first. -/
def packBits (w : Nat) (l : List Nat) : List Byte :=
  beBytes (l.length * w / 8) (l.foldl (fun a x => a * 2 ^ w + x % 2 ^ w) 0)

/-- Samples of `w` bits out of packed bytes. -/
def unpackBits (w : Nat) (n : Nat) (l : List Byte) : List Nat :=
  (List.range n).map (fun i => beNat l / 2 ^ (w * (n - 1 - i)) % 2 ^ w)


/-- A sample of a packed row. -/
def packedAt (w : Nat) (l : List Byte) (i : Nat) : Nat :=
  beNat ((l.drop (i / 4 * (4 * w / 8))).take (4 * w / 8)) / 2 ^ (w * (3 - i % 4)) % 2 ^ w

/-! ### The settings of a picture (R244, R248, R249) -/

/-- The key of a table's stored entries: `which` 0 the active table, 1 the shadow. An empty list is the identity (R246). -/
def lutKey (n k which : Nat) : Nat := (n * 2 + k) * 2 + which

/-- The settings of the mezzanine copy in effect. -/
def State.mezzSet (s : State) (n : Nat) : CopySet where
  on := s.fld (PAF.MZE_COPY_EN n) = 1
  lut := s.fld (PAF.MZE_COPY_CONV n) = 1
  half := s.fld (PAF.MZE_COPY_SCALE n) = 1
  color := s.fld (PAF.MZE_COPY_COLOR n)
  full := s.fld (PAF.MZE_COPY_RANGE n) = 1
  deep := s.fld (PAF.MZE_COPY_SAMPLING n) = 1
  table := Store.at s.luts [] (lutKey n 0 0)
  gen := s.fld (PAF.LUT_STAT_GEN n 0)
  bad := Store.at s.lutBad [] (2 * n)
  tcs := s.fld (PAF.MZE_COPY_TCS n)

/-- The settings of the proxy source in effect: always 4:2:2 10-bit (R243). -/
def State.proxySet (s : State) (n : Nat) : CopySet where
  on := s.fld (PAF.PROXY_EN n) = 1
  lut := s.fld (PAF.PROXY_CONV n) = 1
  color := s.fld (PAF.PROXY_COLOR n)
  full := s.fld (PAF.PROXY_RANGE n) = 1
  sub := s.fld (PAF.PROXY_SUBSTREAM n)
  table := Store.at s.luts [] (lutKey n 1 0)
  gen := s.fld (PAF.LUT_STAT_GEN n 1)
  bad := Store.at s.lutBad [] (2 * n + 1)
  tcs := s.fld (PAF.PROXY_TCS n)

/-- Settings with the nodes that have failed so far in a table still active (R358). -/
def State.withBad (s : State) (n k : Nat) (e : CopySet) : CopySet :=
  if e.gen = s.fld (PAF.LUT_STAT_GEN n k) then { e with bad := e.bad ++ Store.at s.lutBad [] (2 * n + k) } else e

/-- The settings that serve the picture of slot `n` at a grid point: those of the latest boundary up to it. -/
def State.pafSet (s : State) (n grid : Nat) : PafSet :=
  let l := (s.slot n).sets
  match l.find? (fun e => decide (e.grid ≤ grid)) with
  | none => { grid := grid, mezz := s.mezzSet n, proxy := s.proxySet n }
  | some e => { e with mezz := s.withBad n 0 e.mezz, proxy := s.withBad n 1 e.proxy }

/-- Settings as far back as grid point `oldest`. -/
def trimSets (oldest : Nat) : List PafSet → List PafSet
  | [] => []
  | e :: l => if e.grid ≤ oldest then [e] else e :: trimSets oldest l

/-- The oldest grid point of a picture of slot `n` in work, or `grid`. -/
def State.oldestGrid (s : State) (n grid : Nat) : Nat :=
  let anns := s.held ++ s.passes.map Pass.ann ++ s.tasks.map (fun e => e.2.ann)
  let pics := ((s.subs.filter (fun e => e.1 / 16 = n)).map (fun e => e.2.pics.map Picture.grid)).flatten
  ((anns.filter (fun a => a.slot = n)).map Ann.grid ++ pics).foldl min grid

/-- The settings in effect serve the pictures of slot `n` from `grid` on. -/
def noteSet (n grid : Nat) (s : State) : State :=
  let now : PafSet := { grid := grid, mezz := { s.mezzSet n with bad := [] }, proxy := { s.proxySet n with bad := [] } }
  let old := (s.slot n).sets
  let same := match old with
    | e :: _ => decide ({ e.mezz with bad := [] } = now.mezz ∧ { e.proxy with bad := [] } = now.proxy)
    | [] => false
  s.setSlot n { s.slot n with sets := trimSets (s.oldestGrid n grid) (if same then old else now :: old) }

/-- The nodes of table `k` that failed stay with the pictures it serves, once it is replaced (R358). -/
def closeBad (n k : Nat) (s : State) : State :=
  let sets := (s.slot n).sets.map (fun e => if k = 0 then { e with mezz := s.withBad n 0 e.mezz } else { e with proxy := s.withBad n 1 e.proxy })
  { s.setSlot n { s.slot n with sets := sets } with lutBad := Store.put s.lutBad [] (2 * n + k) [] }

/-! ### Codes between the stages (R243) -/

/-- The bits that the stages carry between them: at least 16 (R243). -/
def carriedBits : Nat := max 16 Config.carriedBits

/-- The largest multiple of 1/`n` up to `x`, or the one after it where `x` is none and `up` says so. -/
def gridRound (n : Nat) (up : Rat → Bool) (x : Rat) : Rat :=
  let f := (x * (n : Rat)).floor
  (if (f : Rat) ≠ x * (n : Rat) ∧ up x then ((f + 1 : Int) : Rat) else (f : Rat)) / (n : Rat)

/-- A normalized component as it is carried. -/
def carried (x : Rat) : Rat := gridRound (2 ^ carriedBits) Config.carriedUp x

/-- A sample format: bits, full range. -/
structure Format where
  bits : Nat
  full : Bool
deriving DecidableEq, Repr

/-- One unit of a sample in carried codes. -/
def Format.unit (f : Format) : Nat := 2 ^ (carriedBits - f.bits)

/-- The carried code of black or of zero chroma, and that of the whole excursion, of luma (`c` false) or chroma. -/
def Format.scale (f : Format) (c : Bool) : Nat × Nat :=
  let k := f.unit
  if f.full then (if c then 2 ^ (f.bits - 1) * k else 0, (2 ^ f.bits - 1) * k)
  else
    let e := 2 ^ (f.bits - 8) * k
    if c then (128 * e, 224 * e) else (16 * e, 219 * e)

/-- A carried code as a normalized component: luma 0 to 1, chroma -1/2 to 1/2. -/
def Format.normal (f : Format) (c : Bool) (v : Nat) : Rat :=
  let s := f.scale c
  (((v : Int) - (s.1 : Int) : Int) : Rat) / (s.2 : Rat)

/-- A normalized component as a carried code. -/
def Format.code (f : Format) (c : Bool) (x : Rat) : Nat :=
  let s := f.scale c
  (gridRound 1 Config.carriedUp ((s.1 : Rat) + x * (s.2 : Rat))).floor.toNat

/-- Stage 5 (R243): a carried code rounded to the format's bits and clipped to its range. -/
def Format.final (f : Format) (c : Bool) (v : Nat) : Nat :=
  let k := f.unit
  let e := 2 ^ (f.bits - 8)
  let x := (v + k / 2) / k
  if f.full then min (2 ^ f.bits - 1) x else max (16 * e) (min ((if c then 240 else 235) * e) x)

/-- The luma weights of red and blue of CHINn.FMT.COLOR, in 1/10,000 (ITU-R BT.709, BT.2020, BT.2100). -/
def lumaWeights (color : Nat) : Rat × Rat :=
  if color = 0 then (2126 / 10000, 722 / 10000) else (2627 / 10000, 593 / 10000)

/-- The inverse matrix: R', G', B' of Y', Cb, Cr. -/
def toRgb (color : Nat) (y cb cr : Rat) : List Rat :=
  let (kr, kb) := lumaWeights color
  let r := y + 2 * (1 - kr) * cr
  let b := y + 2 * (1 - kb) * cb
  [r, (y - kr * r - kb * b) / (1 - kr - kb), b]

/-- The forward matrix: Y', Cb, Cr of R', G', B'. -/
def fromRgb (color : Nat) (rgb : List Rat) : List Rat :=
  let (kr, kb) := lumaWeights color
  let r := nth rgb 0 0
  let b := nth rgb 2 0
  let y := kr * r + (1 - kr - kb) * nth rgb 1 0 + kb * b
  [y, (b - y) / (2 * (1 - kb)), (r - y) / (2 * (1 - kr))]

/-! ### Tables (R243 step 2, R246, R358) -/

/-- A node's output for one component: the stored bits [15:4] with the four dropped ones, in units of 1/65,535; the identity for a
node that could not be read, and for every node of the identity. -/
def nodeValue (t : CopySet) (comp : Nat) (rgb : List Nat) : Rat :=
  let i := nth rgb 0 0 + 33 * nth rgb 1 0 + 1089 * nth rgb 2 0
  if t.table = [] ∨ i ∈ t.bad then (nth rgb comp 0 : Rat) / 32
  else
    let e := nth t.table i 0 / 2 ^ (12 * comp) % 4096
    ((16 * e + Config.tableLow e % 16 : Nat) : Rat) / 65535

/-- A node one step on along an axis. -/
def stepAxis (rgb : List Nat) (k : Nat) : List Nat := rgb.set k (nth rgb k 0 + 1)

/-- The tetrahedron's edges from the base node, axes by falling fraction: the sum of the nodes passed, each with the difference of the
fractions at its ends as its weight. -/
def tetraSum (node : List Nat → Rat) : List Nat → Nat → List (Nat × Nat) → Rat
  | at', f, [] => (f : Rat) * node at'
  | at', f, (g, k) :: l => ((f - g : Nat) : Rat) * node at' + tetraSum node (stepAxis at' k) g l

/-- An axis put in its place by falling fraction. -/
def putAxis (e : Nat × Nat) : List (Nat × Nat) → List (Nat × Nat)
  | [] => [e]
  | x :: l => if x.1 < e.1 then e :: x :: l else x :: putAxis e l

/-- The code of a component, 0 to 4,096. -/
def lutCode (x : Rat) : Nat := min 4096 (gridRound 1 Config.carriedUp (x * 4096)).floor.toNat

/-- Tetrahedral interpolation: node min(x >> 7, 31), fraction x - 128 node in units of 1/128 (R243). -/
def throughTable (t : CopySet) (rgb : List Rat) : List Rat :=
  let x := rgb.map lutCode
  let base := x.map (fun v => min (v / 128) 31)
  let axes := ((x.zip base).map (fun e => e.1 - 128 * e.2)).zipIdx.foldr putAxis []
  (List.range 3).map (fun c => carried (tetraSum (nodeValue t c) base 128 axes / 128))

/-! ### A line through stages 1 to 3 (R243) -/

/-- Component rows Y, Cb, Cr of a source line as carried codes in, and the copy's as carried codes out. `deep` is the source's 4:4:4. -/
def convertRows (t : CopySet) (src : Format) (deep : Bool) (color : Nat) (dst : Format) (p : List (List Nat)) : List (List Nat) :=
  let y := nth p 0 []
  let cb := nth p 1 []
  let cr := nth p 2 []
  let reduce (row : List Nat) : List Nat :=
    (List.range (y.length / 2)).map (fun i => min (2 ^ carriedBits - 1) (Config.chromaDown row i))
  if t.lut then
    let wide (row : List Nat) (i : Nat) : Nat := if deep then nth row i 0 else min (2 ^ carriedBits - 1) (Config.chromaUp row i)
    let px := (List.range y.length).map (fun i =>
      let rgb := (toRgb color (src.normal false (nth y i 0)) (src.normal true (wide cb i)) (src.normal true (wide cr i))).map carried
      fromRgb t.color (throughTable t rgb))
    let row (c : Nat) : List Nat := px.map (fun v => dst.code (c != 0) (nth v c 0))
    if t.deep then [row 0, row 1, row 2] else [row 0, reduce (row 1), reduce (row 2)]
  else
    let row (c : Nat) (l : List Nat) : List Nat := l.map (fun v => dst.code (c != 0) (src.normal (c != 0) v))
    if deep = t.deep then [row 0 y, row 1 cb, row 2 cr] else [row 0 y, reduce (row 1 cb), reduce (row 2 cr)]

end Sys2Proof.Machine
end

