-- ==== Sys2Proof/Machine/Ingest.lean ====
section
/-!
DEFINITION. Machine/Ingest.lean: the Ingest Hall: flow contexts, merging, lines, concealment and repeats (spec 08).
-/
namespace Sys2Proof.Machine

/-! ### Records -/

/-- The record of a substream. -/
def State.sub (s : State) (slot sub : Nat) : Substream := Store.at s.subs {} (16 * slot + sub)

/-- That record replaced. -/
def State.setSub (s : State) (slot sub : Nat) (v : Substream) : State := { s with subs := Store.put s.subs {} (16 * slot + sub) v }

/-- The record of a flow context. -/
def State.flow (s : State) (n : Nat) : Flow := Store.at s.flows {} n

/-- That record replaced. -/
def State.setFlow (s : State) (n : Nat) (v : Flow) : State := { s with flows := Store.put s.flows {} n v }

/-- The leg's record within a flow. -/
def Flow.leg (f : Flow) : Leg → LegRun
  | .a => f.legA | .b => f.legB

/-- A flow with a leg's record replaced. -/
def Flow.setLeg (f : Flow) (l : Leg) (r : LegRun) : Flow :=
  match l with
  | .a => { f with legA := r } | .b => { f with legB := r }

/-- FLOWn.STAT's field of a leg. -/
def legStat (n : Nat) : Leg → Fld
  | .a => FLOW.STAT_LEGA n | .b => FLOW.STAT_LEGB n

/-- Whether a leg is enabled. -/
def State.legOn (s : State) (n : Nat) : Leg → Bool
  | .a => s.fld (FLOW.LEGA_CFG_ENABLE n) = 1 | .b => s.fld (FLOW.LEGB_CFG_ENABLE n) = 1

/-- The port a leg is bound to. -/
def State.legPort (s : State) (n : Nat) : Leg → Nat
  | .a => s.fld (FLOW.LEGA_CFG_PORT n) | .b => s.fld (FLOW.LEGB_CFG_PORT n)

/-- The source picture buffers that something still refers to (R222): pictures being received, the picture a repeat would
repeat, held announcements, PAF's passes and the stripes in the Dispatcher. -/
def State.bufferHeld (s : State) (slot sub b : Nat) : Bool :=
  let r := s.sub slot sub
  r.pics.any (fun p => p.buffer = b) || (r.prev.map Prod.fst = some b) ||
    s.held.any (fun a => a.slot = slot && a.sub = sub && a.buffer = b) ||
    s.passes.any (fun x => x.ann.slot = slot && x.ann.sub = sub && x.ann.buffer = b) ||
    s.tasks.any (fun e => e.2.ann.slot = slot && e.2.ann.sub = sub && e.2.ann.buffer = b)

/-- The next free source buffer (R222); four are always enough. -/
def State.freeBuffer (s : State) (slot sub : Nat) : Nat :=
  ((List.range 4).find? (fun b => !s.bufferHeld slot sub b)).getD 0

/-! ### Lines as bytes -/

/-- The key of a line of a source picture buffer. -/
def lineKey (slot sub buffer line : Nat) : Nat := ((16 * slot + sub) * 4 + buffer) * 8192 + line

/-- Bytes of a pixel group of two pixels: 5 at 4:2:2 10-bit, 9 at 4:4:4 12-bit (R212). -/
def groupBytes (s : State) (slot : Nat) : Nat := if s.fld (CHIN.FMT_SAMPLING slot) = 0 then 5 else 9

/-- A black pixel group at the configured sampling and range (R225). -/
def blackGroup (s : State) (slot : Nat) : List Byte :=
  let full := s.fld (CHIN.FMT_RANGE slot) = 1
  if s.fld (CHIN.FMT_SAMPLING slot) = 0 then
    let y := if full then 0 else 64
    packBits 10 [512, y, 512, y]
  else
    let y := if full then 0 else 256
    packBits 12 [2048, y, 2048, 2048, y, 2048]

/-- A black line. -/
def blackLine (s : State) (slot : Nat) : List Byte :=
  (List.replicate (widthOf (s.size slot) / 2) (blackGroup s slot)).flatten

/-- A line of a source buffer. -/
def State.line (s : State) (slot sub buffer line : Nat) : List Byte := Store.at s.source [] (lineKey slot sub buffer line)

/-- A line written to a source buffer (R219, R222). -/
def State.putLine (s : State) (slot sub buffer line : Nat) (b : List Byte) : State :=
  { s with source := Store.put s.source [] (lineKey slot sub buffer line) b }

/-! ### Pictures -/

/-- A substream's list of pictures with one changed. -/
def State.onPic (s : State) (slot sub grid : Nat) (f : Picture → Picture) : State :=
  let r := s.sub slot sub
  s.setSub slot sub { r with pics := r.pics.map (fun p => if p.grid = grid then f p else p) }

/-- The buffer of the picture that concealment and repeats refer to, seen from grid point `grid`: the latest received picture
before it (R225, R226). -/
def refBuffer (r : Substream) (grid : Nat) : Option Nat :=
  match (r.pics.filter (fun p => !p.synth && decide (p.grid < grid))).getLast? with
  | some p => some p.buffer
  | none => r.prev.map Prod.fst

/-- A line closed by concealment (R225): the co-located line of the previous picture, or black; counted, raised and marked. -/
def concealLine (slot sub : Nat) (p : Picture) (line : Nat) (s : State) : State :=
  let data := match refBuffer (s.sub slot sub) p.grid with
    | some b => s.line slot sub b line
    | none => blackLine s slot
  let t := s.putLine slot sub p.buffer line data
  let t := t.onPic slot sub p.grid (fun q =>
    { q with lines := Store.put q.lines {} line {}, closed := line :: q.closed, concealed := line :: q.concealed })
  let t := t.onStats slot p.grid (fun x => { x with lines := x.lines + 1 })
  (t.raise (Pg.chin slot) 1).count 3 2 slot

/-- A line whose pixel groups are all received is written to its buffer and closed (R219). -/
def completeLine (slot sub : Nat) (p : Picture) (line : Nat) (o : OpenLine) (s : State) : State :=
  let t := s.putLine slot sub p.buffer line ((o.groups.map Prod.snd).flatten)
  t.onPic slot sub p.grid (fun q => { q with lines := Store.put q.lines {} line {}, closed := line :: q.closed })

/-- A picture begins: its number, buffer and CTU size are fixed, and the next grid point is expected (R216, R217, R223). -/
def beginPicture (slot sub grid rtp : Nat) (synth : Bool) (s : State) : State :=
  let r := s.sub slot sub
  let buffer := if synth then (refBuffer r grid).getD 0 else s.freeBuffer slot sub
  let p : Picture := { grid := grid, number := r.nextNum, rtp := rtp, buffer := buffer, synth := synth,
                       ctu32 := s.ctuAt (gridAt (s.rate slot) grid), fresh := !r.acquired || r.stepped != 0
                       prevCtu := r.lastCtu, disc := r.stepped != 0 }
  let t := s.setSub slot sub { r with
    acquired := true, expected := some (grid + 1), nextNum := (r.nextNum + 1) % 2 ^ 32
    pics := r.pics ++ [p], repeats := if synth then r.repeats + 1 else 0, stepped := 0, lastCtu := p.ctu32 }
  let t := if sub = 0 ∨ (t.statsAt slot grid).begun = false then
      t.onStats slot grid (fun x => { x with
        picture := if sub = 0 then p.number else x.picture, begun := true
        disc := x.disc + (if sub = 0 then r.stepped else 0)
        repeats := x.repeats + b2n synth, lost := x.lost || (s.slot slot).lost })
    else t.onStats slot grid (fun x => { x with repeats := x.repeats + b2n synth })
  if sub = 0 then
    let t := t.setFld (CHIN.STAT_REPEATS slot) (min 255 (t.sub slot 0).repeats)
    let t := if t.fld (CHIN.STAT_STATE slot) = 1 then t.setFld (CHIN.STAT_STATE slot) 2 else t
    if r.acquired then t else noteSet slot grid (t.setSlot slot { t.slot slot with boundary := some grid })
  else t

/-- The picture a packet's RTP timestamp names, its raw time and whether that is off the grid (R216). -/
def pictureOf (s : State) (slot rtp : Nat) : Nat × Bool :=
  let t := rawTime s.ctr rtp
  let k := nearestGrid (s.rate slot) t
  (k, offGrid t (gridAt (s.rate slot) k))

/-- The grid point a substream expects (R217, R229, R231): after a host step the next picture that arrives, in acquisition, be it after a step, the
first grid point not before the start whose first stripe's window is still open. -/
def expectedGrid (s : State) (slot sub k : Nat) : Nat :=
  let r := s.sub slot sub
  if r.stepped ≠ 0 ∧ r.acquired then k
  else match r.expected with
  | some e => e
  | none =>
    let c := max (gridFrom (s.rate slot) (s.slotStart slot)) (gridFrom (s.rate slot) s.ctr - 1)
    if s.ctr < s.windowClose slot c 0 (s.ctuAt (gridAt (s.rate slot) c)) then c else c + 1

/-- The expected picture is absent (R226): a repeat is synthesized and PICTURE_ABSENT raised. -/
def pictureAbsent (slot sub grid : Nat) (s : State) : State :=
  (beginPicture slot sub grid 0 true s).raise (Pg.chin slot) 0

/-- Whether an SRD breaks R212 or R228 in a slot's format. -/
def srdMisfit (s : State) (slot : Nat) (d : Srd) : Bool :=
  let g := groupBytes s slot
  d.field || decide (linesOf (s.size slot) ≤ d.line) || decide (d.bytes.length % g ≠ 0) || decide (d.pixel % 2 ≠ 0)
    || decide (widthOf (s.size slot) < d.pixel + d.bytes.length / g * 2)

/-- Whether a packet is MISFIT (R212, R228): an SRD is, or it holds none or more than three. -/
def packetMisfit (s : State) (slot : Nat) (pkt : VideoPacket) : Bool :=
  decide (pkt.srds.length < 1 ∨ 3 < pkt.srds.length) || pkt.srds.any (srdMisfit s slot)

/-- The bytes cut into pixel groups of `g` bytes, numbered from `i`. -/
def cutGroups (g : Nat) : Nat → Nat → List Byte → List (Nat × List Byte)
  | 0, _, _ => []
  | n + 1, i, b => (i, b.take g) :: cutGroups g n (i + 1) (b.drop g)

/-- Whether a line of a picture takes no more packets (R219): it is closed, its stripe's window has closed, be it in this cycle, or its merge
allowance of 150 µs is over. -/
def State.lineOver (s : State) (slot : Nat) (p : Picture) (line : Nat) : Bool :=
  let o := Store.at p.lines {} line
  decide (line ∈ p.closed) || decide (s.windowClose slot p.grid (line / ctuHeight p.ctu32) p.ctu32 ≤ s.ctr)
    || (o.groups != [] && decide (o.firstAt + usCyc 150 < s.cyc))

/-- One SRD of a kept packet: its groups join its line, unless that line is over; a complete line is written (R219). -/
def placeSrd (slot sub grid : Nat) (s : State) (d : Srd) : State :=
  match (s.sub slot sub).pics.find? (fun p => p.grid = grid) with
  | none => s
  | some p =>
    if s.lineOver slot p d.line then s
    else
      let o := Store.at p.lines {} d.line
      let g := groupBytes s slot
      let groups := (cutGroups g (d.bytes.length / g) (d.pixel / 2) d.bytes).foldl
        (fun m e => Store.put m [] e.1 e.2) o.groups
      let o' : OpenLine := { firstAt := if o.groups = [] then s.cyc else o.firstAt, groups := groups }
      if groups.length = widthOf (s.size slot) / 2 then completeLine slot sub p d.line o' s
      else s.onPic slot sub grid (fun q => { q with lines := Store.put q.lines {} d.line o' })

/-- Leg activity on a packet (R211): the first packet on a QUIET leg makes it ACTIVE and raises LEG_RESTORED. -/
def legHeard (flow : Nat) (leg : Leg) (s : State) : State :=
  let f := s.flow flow
  let t := s.setFlow flow (f.setLeg leg { lastAt := s.cyc, reported := false })
  if s.fld (legStat flow leg) = 1 then t else (t.setFld (legStat flow leg) 1).raise (Pg.flow flow) 1

/-- A margin of a flow joins the second's smallest (R221), in ns: the close of a stripe's window less the arrival, in counter units. -/
def joinMargin (flow : Nat) (d : Int) (s : State) : State :=
  let m : Int := d / (Config.unitsPerNs : Int)
  let f := s.flow flow
  s.setFlow flow { f with marginMin := match f.marginMin with
    | some x => some (min x m)
    | none => some m }

/-- The number of a leg and stripe in a picture's arrivals. -/
def arrivalKey (leg : Leg) (stripe : Nat) : Nat := (match leg with
  | .a => 0
  | .b => 4096) + stripe

/-- A packet of a stripe arrives on a leg (R221): it is the stripe's last one so far; after the close its margin is negative or 0 and joins at
once. -/
def noteArrival (flow : Nat) (leg : Leg) (slot sub grid : Nat) (s : State) (d : Srd) : State :=
  match (s.sub slot sub).pics.find? (fun p => p.grid = grid) with
  | none => s
  | some p =>
    let k := d.line / ctuHeight p.ctu32
    let close := s.windowClose slot grid k p.ctu32
    if close ≤ s.ctr then joinMargin flow ((close : Int) - (s.ctr : Int)) s
    else s.onPic slot sub grid (fun q => { q with arrivals := Store.put q.arrivals none (arrivalKey leg k) (some s.ctr) })

/-- At the close of a stripe's window the margin of each leg that delivered a packet of it joins its second (R221). -/
def closeMargins (flow slot grid stripe : Nat) (p : Picture) (s : State) : State :=
  [Leg.a, Leg.b].foldl (fun t leg => match Store.at p.arrivals none (arrivalKey leg stripe) with
    | some x => joinMargin flow ((s.windowClose slot grid stripe p.ctu32 : Int) - (x : Int)) t
    | none => t) s

/-- The sender checks of R215: a picture beyond a limit on either leg is counted once. -/
def senderCheck (flow slot sub grid : Nat) (pkt : VideoPacket) (s : State) : State :=
  let cmax := s.fld (FLOW.SNDR_CMAX flow)
  let vrx := s.fld (FLOW.SNDR_VRX_FULL flow)
  let wide : Bool := decide ((cmax ≠ 0 ∧ cmax < pkt.burst) ∨ (vrx ≠ 0 ∧ vrx < pkt.vrx))
  match (s.sub slot sub).pics.find? (fun p => p.grid = grid) with
  | none => s
  | some p =>
    if wide && !p.viol then
      let t := s.onPic slot sub grid (fun q => { q with viol := true })
      (t.addAcc (FLOW.SNDR_VIOL_V flow).key).raise (Pg.flow flow) 3
    else s

/-! ### Sequence numbers (R218, R220, R233) -/

/-- An extended sequence number by its distance from a picture's first, so that a wrap at 2^32 keeps the order. -/
def seqKey (seq0 seq : Nat) : Nat := (seq + 2 ^ 31 + 2 ^ 32 - seq0 % 2 ^ 32) % 2 ^ 32

/-- A sequence number once a leg has delivered it. -/
def SeqSeen.by (q : SeqSeen) : Leg → SeqSeen
  | .a => { q with legA := true }
  | .b => { q with legB := true }

/-- Groups put over a line that was completed before. -/
def patchLine (g from' : Nat) (b line : List Byte) : List Byte := line.take (g * from') ++ b ++ line.drop (g * from' + b.length)

/-- The data of leg A's copy stands in place of leg B's that came in the same cycle (R218): in an open line and in one just completed. -/
def replaceSrd (slot sub grid : Nat) (s : State) (d : Srd) : State :=
  match (s.sub slot sub).pics.find? (fun p => p.grid = grid) with
  | none => s
  | some p =>
    if d.line ∈ p.concealed then s
    else if d.line ∈ p.closed then
      s.putLine slot sub p.buffer d.line (patchLine (groupBytes s slot) (d.pixel / 2) d.bytes (s.line slot sub p.buffer d.line))
    else placeSrd slot sub grid s d

/-- A copy of a sequence number already kept: a duplicate, whose arrival difference from the first copy joins the interval's leg skew when it
came by the other leg (R218, R220). When leg A's copy comes in the cycle in which leg B's was kept, A's is kept and B's is the
duplicate. -/
def duplicateCopy (flow : Nat) (leg : Leg) (slot sub grid : Nat) (pkt : VideoPacket) (key : Nat) (q : SeqSeen) (s : State) : State :=
  let other : Bool := match leg with
    | .a => q.legB && !q.legA
    | .b => q.legA && !q.legB
  let d : Int := ((s.lane (s.legPort flow leg)).rxStamp : Int) - (q.at0 : Int)
  let f := s.flow flow
  let t := if other then
      s.setFlow flow { f with pairs := f.pairs + 1, skewSum := f.skewSum + (if leg = .b then d else -d) }
    else s
  let t := t.addAcc (FLOW.DUPLICATES_V flow).key
  let t := t.onPic slot sub grid (fun p => { p with seqs := Store.put p.seqs {} key (q.by leg) })
  if leg = .a ∧ other ∧ q.keptAt = s.cyc then
    let t := t.setAcc (FLOW.PKTS_B_V flow).key (t.accAt (FLOW.PKTS_B_V flow).key - 1)
    pkt.srds.foldl (replaceSrd slot sub grid) (t.addAcc (FLOW.PKTS_A_V flow).key)
  else t

/-- A received picture is found to be misfit (R228). The second misfit picture with no picture that fits between latches FORMAT_LOST on
the slot; a picture still being received fits so far. -/
def foundMisfit (slot sub grid : Nat) (s : State) : State :=
  let r := s.sub slot sub
  match r.pics.find? (fun p => p.grid = grid) with
  | none => s
  | some p =>
    if p.misfit then s
    else
      let fits := r.pics.any (fun q => !q.synth && !q.misfit && decide (q.grid < grid))
      let run := if fits then 1 else r.misfitRun + 1
      let t := (s.setSub slot sub { r with misfitRun := run }).onPic slot sub grid (fun q => { q with misfit := true })
      if 2 ≤ run ∧ (t.slot slot).lost = false then
        let t := t.setSlot slot { t.slot slot with lost := true }
        let t := t.onStats slot grid (fun x => { x with lost := true })
        (t.setFld (CHIN.STAT_STATE slot) 3).raise (Pg.chin slot) 2
      else t

/-- A packet accepted for the picture at `grid` (R218, R219, R221, R228): misfit, duplicate, late, or kept. -/
def acceptPacket (flow : Nat) (leg : Leg) (slot sub grid : Nat) (pkt : VideoPacket) (s : State) : State :=
  match (s.sub slot sub).pics.find? (fun p => p.grid = grid) with
  | none => s
  | some p =>
    if packetMisfit s slot pkt then (foundMisfit slot sub grid s).addAcc (FLOW.MISFIT_V flow).key
    else
      let seq0 := if p.seqs = [] then pkt.seq else p.seq0
      let key := seqKey seq0 pkt.seq
      let q := Store.at p.seqs {} key
      let s := pkt.srds.foldl (noteArrival flow leg slot sub grid) (senderCheck flow slot sub grid pkt s)
      if q.kept then duplicateCopy flow leg slot sub grid pkt key q s
      else
        let open' := pkt.srds.any (fun d => !s.lineOver slot p d.line)
        let q' : SeqSeen := { q.by leg with at0 := (s.lane (s.legPort flow leg)).rxStamp, kept := open', keptAt := if open' then s.cyc else 0 }
        let t := s.onPic slot sub grid (fun x => { x with seq0 := seq0, seqs := Store.put x.seqs {} key q' })
        if open' then
          let t := match leg with
            | .a => t.addAcc (FLOW.PKTS_A_V flow).key
            | .b => t.addAcc (FLOW.PKTS_B_V flow).key
          pkt.srds.foldl (placeSrd slot sub grid) (t.count 3 1 flow)
        else t.addAcc (FLOW.LATE_V flow).key

/-- Whether the expected picture of an acquired substream has no packet by the close of its first window, be it in this cycle (R226). -/
def State.absentNow (s : State) (slot sub : Nat) : Option Nat :=
  let r := s.sub slot sub
  match r.expected with
  | some e =>
    if r.acquired ∧ r.stepped = 0 ∧ s.windowClose slot e 0 (s.ctuAt (gridAt (s.rate slot) e)) ≤ s.ctr then some e else none
  | none => none

/-- A packet of the picture at grid point `k` discarded since that picture is over or was absent (R217, R226): its margin is negative (R221), and a
copy of the last picture's is no gap of its leg (R233). -/
def latePacket (flow : Nat) (leg : Leg) (slot k : Nat) (pkt : VideoPacket) (s : State) : State :=
  let h := s.ctuAt (gridAt (s.rate slot) k)
  let s := if packetMisfit s slot pkt then s
    else pkt.srds.foldl (fun t d =>
      joinMargin flow ((t.windowClose slot k (d.line / ctuHeight h) h : Int) - (t.ctr : Int)) t) s
  let f := s.flow flow
  let key := seqKey f.tailSeq0 pkt.seq
  let t := if f.tail ≠ [] ∧ f.tailRtp = pkt.rtp % 2 ^ 32 then
      s.setFlow flow { f with tail := Store.put f.tail {} key ((Store.at f.tail {} key).by leg) }
    else s
  t.addAcc (FLOW.LATE_PICTURE_V flow).key

/-- A packet for a picture at grid point `k` (R216, R217, R226, R231): it joins a picture being received, begins the expected one, or is discarded as
early or late. An expected picture whose time to begin is over counts as absent first. -/
def placePacket (flow : Nat) (leg : Leg) (slot sub : Nat) (pkt : VideoPacket) (s : State) : State :=
  match (s.sub slot sub).pics.find? (fun p => !p.synth && p.rtp = pkt.rtp % 2 ^ 32) with
  | some p => acceptPacket flow leg slot sub p.grid pkt s
  | none =>
    let s := match s.absentNow slot sub with
      | some e => pictureAbsent slot sub e s
      | none => s
    let (k, off) := pictureOf s slot pkt.rtp
    let e0 := expectedGrid s slot sub k
    let h := s.ctuAt (gridAt (s.rate slot) e0)
    let last := s.stripeAt slot e0 (stripesOf (s.lines slot) h - 1) h
    let s := if (s.sub slot sub).acquired ∧ e0 < k ∧ last ≤ s.ctr then pictureAbsent slot sub e0 s else s
    let e := expectedGrid s slot sub k
    if k < e then latePacket flow leg slot k pkt s
    else if e < k then s.addAcc (FLOW.OUT_OF_WINDOW_V flow).key
    else
      let t := beginPicture slot sub k (pkt.rtp % 2 ^ 32) false s
      let t := if off then (foundMisfit slot sub k t).raise (Pg.chin slot) 4 else t
      acceptPacket flow leg slot sub k pkt t

/-- A slot's packets that it does not receive are discarded as filtered on the leg's port (R209, R232). -/
def filtered (port : Nat) (s : State) : State := s.addAcc (MAC.RX_FILTERED_V port).key

/-- The destination address and UDP port that a leg matches (R208). -/
def State.legDst (s : State) (n : Nat) : Leg → Nat × Nat
  | .a => (s.fld (FLOW.LEGA_ADDR_DST n), s.fld (FLOW.LEGA_ADDR_UDP n))
  | .b => (s.fld (FLOW.LEGB_ADDR_DST n), s.fld (FLOW.LEGB_ADDR_UDP n))

/-- A video packet that the MAC has received from the port's own near-end loop for a leg (R199). -/
def Echo.feeds (e : Echo) (d : Nat × Nat) : Bool := e.heard && e.dstIp = d.1 && e.udp = d.2

/-- Whether the MAC of a leg's port can deliver a packet: the port is ACTIVE (R191), and under a near-end loop the packet is its own (R199). -/
def State.delivers (s : State) (n : Nat) (leg : Leg) : Bool :=
  let x := s.legPort n leg
  s.portActive x && (!s.looped x || (s.lane x).echoes.any (fun e => e.feeds (s.legDst n leg)))

/-- The port after it delivered a video packet: timestamped (R163), a payload block (R197), taken from the loop if there is one. -/
def delivered (n : Nat) (leg : Leg) (s : State) : State :=
  let x := s.legPort n leg
  let l := s.lane x
  let rest := match takeFirst (fun e : Echo => e.feeds (s.legDst n leg)) l.echoes with
    | some r => r.2
    | none => l.echoes
  stampRx x (heardBlock x .payload (s.setLane x { l with echoes := rest }))

/-- ING_PACKET (R208 to R229): a video packet that a flow's leg matched. -/
def execIngPacket (flow : Fin 64) (leg : Leg) (pkt : VideoPacket) (s : State) : Out :=
  finish s <|
    let n := flow.val
    let slot := s.fld (FLOW.CFG_SLOT n)
    let sub := s.fld (FLOW.CFG_SUBSTREAM n)
    let pt := s.fld (FLOW.CFG_PT n)
    if s.inService = false ∨ s.delivers n leg = false then s
    else if s.stopped 24 then delivered n leg s
    else if s.fld (FLOW.CFG_KIND n) ≠ 1 ∨ s.legOn n leg = false then filtered (s.legPort n leg) s
    else
      let t := legHeard n leg (delivered n leg s)
      if t.slotRuns slot = false then filtered (t.legPort n leg) t
      else if (pt ≠ 0 ∧ pt ≠ pkt.pt) ∨ (t.slot slot).lost then t.addAcc (FLOW.MISFIT_V n).key
      else placePacket n leg slot sub pkt t

/-- LEG_QUIET (R211): 10 ms without a packet on an ACTIVE leg, or once after the enable of a leg that never had one. -/
def execLegQuiet (flow : Fin 64) (leg : Leg) (s : State) : Out :=
  finish s <|
    let n := flow.val
    let r := (s.flow n).leg leg
    if s.inService ∧ s.legOn n leg ∧ r.reported = false ∧ r.lastAt + msCyc 10 ≤ s.cyc then
      let t := s.setFlow n ((s.flow n).setLeg leg { r with reported := true })
      (t.setFld (legStat n leg) 2).raise (Pg.flow n) 0
    else s

/-- LINE_MERGE_TIMEOUT (R219): 150 µs after a line's first packet the incomplete line is closed and concealed. ING is
Concourse master 24. -/
def execLineMergeTimeout (slot : Fin 8) (sub : Fin 16) (line : Nat) (s : State) : Out :=
  finish s <|
    let due (p : Picture) : Bool :=
      let o := Store.at p.lines {} line
      o.groups ≠ [] && !decide (line ∈ p.closed) && decide (o.firstAt + usCyc 150 ≤ s.cyc)
    match (s.sub slot.val sub.val).pics.find? due with
    | some p => if s.inService ∧ s.stopped 24 = false then concealLine slot.val sub.val p line s else s
    | none => s

/-- The lines of a stripe of a picture of `lines` lines. -/
def stripeLines (lines stripe : Nat) (ctu32 : Bool) : List Nat :=
  let h := ctuHeight ctu32
  (List.range h).filterMap (fun i => if stripe * h + i < lines then some (stripe * h + i) else none)

/-- The video flow bound to a substream. -/
def State.flowOf (s : State) (slot sub : Nat) : Option Nat :=
  (List.range 64).find? (fun n => s.fld (FLOW.CFG_KIND n) = 1 ∧ s.fld (FLOW.CFG_SLOT n) = slot ∧ s.fld (FLOW.CFG_SUBSTREAM n) = sub)

/-- A picture leaves the substream once its last stripe is announced and its last window has closed; a received one becomes the picture that
concealment and repeats refer to (R225, R226). -/
def retirePicture (slot sub grid : Nat) (s : State) : State :=
  let r := s.sub slot sub
  match r.pics.find? (fun p => p.grid = grid) with
  | none => s
  | some p =>
    let n := stripesOf (s.lines slot) p.ctu32
    if p.announced < n ∨ p.shut.length < n then s
    else s.setSub slot sub { r with
      pics := r.pics.filter (fun q => q.grid ≠ grid)
      prev := if p.synth then r.prev else some (p.buffer, p.grid) }

/-- The arrival window of a stripe of a received picture closes: every line still open is concealed, and the stripe's margins are known (R219,
R221, R227). -/
def shutStripe (slot sub grid stripe : Nat) (s : State) : State :=
  match (s.sub slot sub).pics.find? (fun p => p.grid = grid) with
  | none => s
  | some p =>
    let s := if p.synth then s
      else
        let t := ((stripeLines (s.lines slot) stripe p.ctu32).filter (fun l => !decide (l ∈ p.closed))).foldl
          (fun t l => concealLine slot sub p l t) s
        match s.flowOf slot sub with
        | some f => closeMargins f slot grid stripe p t
        | none => t
    s.onPic slot sub grid (fun q => { q with shut := stripe :: q.shut })

/-- The gaps of the flow's last picture are counted once the next one ends: what a leg has not delivered by then it never did (R233). -/
def settleGaps (flow : Nat) (s : State) : State :=
  let f := s.flow flow
  match f.tail.getLast? with
  | none => s
  | some (hi, _) =>
    let miss (g : SeqSeen → Bool) : Nat := (hi + 1 - f.tailFrom) - (f.tail.filter (fun e => decide (f.tailFrom ≤ e.1) && g e.2)).length
    let t := if s.legOn flow .a then s.addAcc (FLOW.GAPS_A_V flow).key (miss (fun q => q.legA)) else s
    let t := if t.legOn flow .b then t.addAcc (FLOW.GAPS_B_V flow).key (miss (fun q => q.legB)) else t
    t.setFlow flow { t.flow flow with tail := [] }

/-- The sequence numbers of a received picture at the close of its last window (R233), from the number after the previous picture's last to its own
last: those kept on neither leg are lost; those of each leg wait for copies in flight. -/
def countGaps (flow slot sub grid : Nat) (s : State) : State :=
  match (s.sub slot sub).pics.find? (fun p => p.grid = grid) with
  | none => s
  | some p =>
    match minOf (p.seqs.map Prod.fst), p.seqs.getLast? with
    | some lo, some (hi, _) =>
      let t := settleGaps flow s
      let f := t.flow flow
      let from' := match f.lastSeq with
        | some l =>
          let k := seqKey p.seq0 l
          if k < lo then k + 1 else lo
        | none => lo
      let lost := (hi + 1 - from') - (p.seqs.filter (fun e => e.2.kept)).length
      (t.addAcc (FLOW.LOST_BOTH_V flow).key lost).setFlow flow { f with
        lastSeq := some ((hi + p.seq0 + 2 ^ 31) % 2 ^ 32), tail := p.seqs, tailRtp := p.rtp, tailSeq0 := p.seq0, tailFrom := from' }
    | _, _ => s

/-- The end of a received picture's last window: its gaps are counted, and a picture that fits ends the run of misfit pictures, but for
those that came after it (R228). -/
def endPicture (slot sub grid : Nat) (s : State) : State :=
  match (s.sub slot sub).pics.find? (fun p => p.grid = grid) with
  | none => s
  | some p =>
    if p.synth then s
    else
      let t := match s.flowOf slot sub with
        | some f => countGaps f slot sub grid s
        | none => s
      let r := t.sub slot sub
      if p.misfit then t
      else t.setSub slot sub { r with misfitRun := (r.pics.filter (fun q => !q.synth && q.misfit && decide (grid < q.grid))).length }

/-- STRIPE_WINDOW_CLOSE (R219, R226, R227): the window of a stripe closes on the oldest picture whose stripe is open; stripe 0 of
an expected picture without a packet makes that picture absent. ING is Concourse master 24. -/
def execStripeWindowClose (slot : Fin 8) (sub : Fin 16) (stripe : Nat) (s : State) : Out :=
  finish s <|
    let a := slot.val
    let b := sub.val
    let r := s.sub a b
    if s.inService = false ∨ s.stopped 24 ∨ s.slotRuns a = false then s
    else match r.pics.find? (fun p => !decide (stripe ∈ p.shut) && decide (stripe < stripesOf (s.lines a) p.ctu32)) with
    | some p =>
      if s.windowClose a p.grid stripe p.ctu32 ≤ s.ctr then
        let t := shutStripe a b p.grid stripe s
        retirePicture a b p.grid (if stripe + 1 = stripesOf (s.lines a) p.ctu32 then endPicture a b p.grid t else t)
      else s
    | none =>
      match s.absentNow a b with
      | some e => if stripe = 0 then shutStripe a b e 0 (pictureAbsent a b e s) else s
      | none => s

/-- A write of CHINn.CTRL.REACQUIRE (R228): the latch clears at once and the substreams resume. -/
def reacquire (slot : Nat) (s : State) : State :=
  if (s.slot slot).lost then
    let t := s.setSlot slot { s.slot slot with lost := false }
    let t := (List.range 16).foldl (fun u b => u.setSub slot b { u.sub slot b with misfitRun := 0 }) t
    t.setFld (CHIN.STAT_STATE slot) (if (t.sub slot 0).acquired then 2 else 1)
  else s

/-- Whether every line of the next stripe to announce is written or concealed; a repeat's stripe when its window closed
(R223, R226). -/
def State.stripeReady (s : State) (slot : Nat) (p : Picture) : Bool :=
  if p.synth then decide (p.announced ∈ p.shut)
  else subset (stripeLines (s.lines slot) p.announced p.ctu32) p.closed

/-- The announcement of a picture's next stripe (R223). -/
def annOf (s : State) (slot sub : Nat) (p : Picture) : Ann :=
  let conc := (stripeLines (s.lines slot) p.announced p.ctu32).filter (fun l => decide (l ∈ p.concealed))
  { slot := slot, sub := sub, picture := p.number, stripe := p.announced, grid := p.grid
    tS := s.stripeAt slot p.grid p.announced p.ctu32, buffer := p.buffer, ctu32 := p.ctu32
    prevBuf := if p.fresh then none else refBuffer (s.sub slot sub) p.grid, prevCtu := p.prevCtu
    repeat_ := p.synth, concealed := decide (conc ≠ []), stalled := false, lines := conc.length, conc := conc
    disc := p.disc, madeAt := s.cyc }

/-- The picture of a substream whose next stripe is to be announced: the oldest with one left (R223). -/
def State.toAnnounce (s : State) (slot sub : Nat) : Option Picture :=
  (s.sub slot sub).pics.find? (fun p => decide (p.announced < stripesOf (s.lines slot) p.ctu32))

/-- ING hands a picture's next stripe over: the announcement counts (R223). -/
def announced (slot sub : Nat) (p : Picture) (s : State) : State :=
  let last := p.announced + 1 = stripesOf (s.lines slot) p.ctu32
  let t := if sub = 0 then s.setFld (CHIN.STAT_PICTURE slot) p.number else s
  let t := retirePicture slot sub p.grid (t.onPic slot sub p.grid (fun q => { q with announced := q.announced + 1 }))
  if last then t.onStats slot p.grid (fun x => { x with subsDone := sub :: x.subsDone }) else t

end Sys2Proof.Machine
end

