-- ==== Sys2Proof/Machine/Paf.lean ====
section
/-!
DEFINITION. Machine/Paf.lean: what a PAF pass computes from a stripe: block records, the stripe summary, quarter-resolution
luma, copies and proxy lines, and the conversion tables (spec 09).
-/
namespace Sys2Proof.Machine

/-! ### Samples -/

/-- Bits of a source sample: 10 at 4:2:2, 12 at 4:4:4 (R212). -/
def sampleBits (s : State) (slot : Nat) : Nat := if s.fld (CHIN.FMT_SAMPLING slot) = 0 then 10 else 12

/-- The samples of `n` pixel groups of `g` bytes, `k` samples of `w` bits each. -/
def groupSamples (g w k : Nat) : Nat → List Byte → List (List Nat)
  | 0, _ => []
  | n + 1, b => unpackBits w k (b.take g) :: groupSamples g w k n (b.drop g)

/-- A line's pixel groups as samples: (Cb, Y, Cr, Y) at 4:2:2, (Cb, Y, Cr, Cb, Y, Cr) at 4:4:4 (R212). -/
def lineGroups (s : State) (slot : Nat) (b : List Byte) : List (List Nat) :=
  if s.fld (CHIN.FMT_SAMPLING slot) = 0 then groupSamples 5 10 4 (b.length / 5) b else groupSamples 9 12 6 (b.length / 9) b

/-- A line's luma samples. -/
def lumaLine (s : State) (slot : Nat) (b : List Byte) : List Nat :=
  ((lineGroups s slot b).map (fun g =>
    if s.fld (CHIN.FMT_SAMPLING slot) = 0 then [nth g 1 0, nth g 3 0] else [nth g 1 0, nth g 4 0])).flatten

/-- The luma lines of a stripe of a source buffer. -/
def stripeLuma (s : State) (slot sub buffer stripe : Nat) (ctu32 : Bool) : List (List Nat) :=
  (stripeLines (s.lines slot) stripe ctu32).map (fun l => lumaLine s slot (s.line slot sub buffer l))

/-! ### Block records and summaries (R239 to R242) -/

/-- |a - b| on naturals. -/
def absDiff (a b : Nat) : Nat := if a ≤ b then b - a else a - b

/-- The sum of the differences of neighbours in a row. -/
def rowDiffs : List Nat → Nat
  | a :: b :: l => absDiff a b + rowDiffs (b :: l)
  | _ => 0

/-- The sum of the differences of two rows, element by element. -/
def pairDiffs (a b : List Nat) : Nat := (a.zip b).foldl (fun t e => t + absDiff e.1 e.2) 0

/-- The sum over all horizontally and vertically adjacent pairs of a block. -/
def blockDiffs : List (List Nat) → Nat
  | a :: b :: l => rowDiffs a + pairDiffs a b + blockDiffs (b :: l)
  | [a] => rowDiffs a
  | [] => 0

/-- ACT of a sum of differences (R239). -/
def actOf (sum : Nat) : Nat :=
  let v := 1 + sum
  let e := Nat.log2 v
  8 * e + (if 3 ≤ e then v / 2 ^ (e - 3) % 8 else v * 2 ^ (3 - e) % 8)

/-- Columns x to x + n - 1 of rows. -/
def columns (x n : Nat) (rows : List (List Nat)) : List (List Nat) := rows.map (fun r => (r.drop x).take n)

/-- A quarter-resolution sample of a sum of 16 luma samples, in 10 bits (R234). The sums of 12-bit samples that round to 1,024 have no 10-bit
value of their own: what is stored for them is a free value. -/
def quarterSample (bits sum : Nat) : Nat :=
  let q := if bits = 10 then (sum + 8) / 16 else (sum + 32) / 64
  if q < 1024 then q else Config.quarterTop % 1024

/-- Four rows summed in 4 x 4 squares: one quarter-resolution row (R234). -/
def quarterRow (bits : Nat) (rows : List (List Nat)) (n : Nat) : List Nat :=
  (List.range n).map (fun i => quarterSample bits (((columns (4 * i) 4 rows).flatten).foldl (· + ·) 0))

/-- The key of a quarter-resolution row of a source buffer. -/
def quarterKey (slot sub buffer row : Nat) : Nat := ((16 * slot + sub) * 4 + buffer) * 2048 + row

/-- A quarter-resolution sample. -/
def State.quarterAt (s : State) (slot sub buffer : Nat) (y x : Int) : Nat :=
  packedAt 10 (Store.at s.quarter [] (quarterKey slot sub buffer y.toNat)) x.toNat

/-- A sample at one-sixteenth resolution: the mean of 2 x 2 quarter-resolution samples (R240 step 1). -/
def State.sixteenthAt (s : State) (slot sub buffer : Nat) (y x : Int) : Nat :=
  let sum := s.quarterAt slot sub buffer (2 * y) (2 * x) + s.quarterAt slot sub buffer (2 * y) (2 * x + 1)
    + s.quarterAt slot sub buffer (2 * y + 1) (2 * x) + s.quarterAt slot sub buffer (2 * y + 1) (2 * x + 1)
  sum / 4 + b2n (sum % 4 ≠ 0 && Config.meanRoundsUp sum)

/-- The SAD of an n x m block at (x, y) against the block displaced by (dx, dy), by two sample readers. -/
def sadOf (cur prev : Int → Int → Nat) (x y : Int) (n m : Nat) (dx dy : Int) : Nat :=
  ((List.range m).map (fun (j : Nat) => ((List.range n).map (fun (i : Nat) =>
    absDiff (cur (y + (j : Int)) (x + (i : Int))) (prev (y + (j : Int) + dy) (x + (i : Int) + dx)))).foldl
      (fun (a b : Nat) => a + b) 0)).foldl (fun (a b : Nat) => a + b) 0

/-- Integers from -r to r. -/
def spread (r : Nat) : List Int := (List.range (2 * r + 1)).map (fun (i : Nat) => (i : Int) - (r : Int))

/-- The first entry with the least key, keys compared from their heads. -/
def leastKey {α : Type} : List (List Nat × α) → Option (List Nat × α)
  | [] => none
  | e :: l => match leastKey l with
    | none => some e
    | some f => if keyBefore f.1 e.1 then some f else some e

/-- The pre-estimate of one block of the stripe (R240): its quarter-resolution vector and COST. `w4`, `h4` are the picture's size
at quarter resolution, `left` and `above` the candidate vectors of the block to the left and of the co-located block. -/
def preEstimate (s : State) (slot sub buf prev : Nat) (w4 h4 bx by' m : Nat) (left colo : Option (Int × Int)) : Int × Int × Nat :=
  let cur := s.quarterAt slot sub buf
  let old := s.quarterAt slot sub prev
  let inside (n rows w h x y : Int) : Bool := decide (0 ≤ x ∧ 0 ≤ y ∧ x + n ≤ w ∧ y + rows ≤ h)
  let coarse := leastKey (((spread 8).map (fun dy => (spread 16).filterMap (fun dx =>
    if inside 4 (m / 2) (w4 / 2) (h4 / 2) (bx / 2 + dx) (by' / 2 + dy) then
      some ([sadOf (s.sixteenthAt slot sub buf) (s.sixteenthAt slot sub prev) (bx / 2) (by' / 2) 4 (m / 2) dx dy,
             dx.natAbs + dy.natAbs], (dx, dy))
    else none))).flatten)
  let cands : List (Option (Int × Int)) := [some (0, 0), coarse.map (fun c => (2 * c.2.1, 2 * c.2.2)), left, colo]
  let tried := (cands.zipIdx.map (fun c => match c.1 with
    | none => []
    | some v => ((spread 2).map (fun dy => (spread 2).filterMap (fun dx =>
        let x := v.1 + dx
        let y := v.2 + dy
        if inside 8 m w4 h4 (bx + x) (by' + y) ∧ x.natAbs ≤ 64 ∧ y.natAbs ≤ 32 then
          some ([sadOf cur old bx by' 8 m x y, c.2, dx.natAbs + dy.natAbs], (x, y))
        else none))).flatten)).flatten
  match leastKey tried with
  | some (k, v) => (v.1, v.2, min 511 (nth k 0 0 / 128))
  | none => (0, 0, 0)

/-- A block record (R241). -/
def blockRecord (mvx mvy : Int) (cost act : Nat) : Nat :=
  unsignedOf 8 mvx * 2 ^ 24 + unsignedOf 7 mvy * 2 ^ 17 + cost % 512 * 2 ^ 8 + act % 256

/-- An absent record with its ACT: MVX is 0x80 (R240). -/
def absentRecord (act : Nat) : Nat := 0x80 * 2 ^ 24 + act % 256

/-- The vector of a record, if it is not absent. -/
def recordVector (r : Nat) : Option (Int × Int) :=
  if r / 2 ^ 24 % 256 = 0x80 then none else some (signedOf 8 (r / 2 ^ 24), signedOf 7 (r / 2 ^ 17))

/-- The key of a stripe's records and summary. -/
def recordKey (slot sub picture stripe : Nat) : Nat := ((16 * slot + sub) * 4 + picture % 4) * 256 + stripe

/-- The number of the picture before. -/
def pictureBefore (picture : Nat) : Nat := (picture + (2 ^ 32 - 1)) % 2 ^ 32

/-- The summary of a stripe of a picture, empty once it is overwritten: its PICTURE tells (R242). -/
def State.summaryAt (s : State) (slot sub picture stripe : Nat) : List Byte :=
  let b := Store.at s.summary [] (recordKey slot sub picture stripe)
  if leNat (b.take 4) = picture then b else []

/-- The records of a stripe of a picture, all absent once they are overwritten (R242). -/
def State.recordsAt (s : State) (slot sub picture stripe : Nat) : List Nat :=
  if s.summaryAt slot sub picture stripe = [] then [] else Store.at s.records [] (recordKey slot sub picture stripe)

/-- The stripe of the picture before that holds the first line of stripe `k`: the co-located one, its own number unless the CTU size changed
between the two. -/
def coStripe (ctu32 prevCtu : Bool) (k : Nat) : Nat := k * ctuHeight ctu32 / ctuHeight prevCtu

/-- Row `row` of 32 x 32 blocks of a picture whose CTU size is `ctu32`, `across` blocks wide (R240, R242). -/
def State.recordRowAt (s : State) (slot sub picture : Nat) (ctu32 : Bool) (across row : Nat) : List Nat :=
  let per := ctuHeight ctu32 / 32
  ((s.recordsAt slot sub picture (row / per)).drop (row % per * across)).take across

/-- The record of the block in column `col` of a row of blocks, absent where there is none. -/
def recordIn (row : List Nat) (col : Nat) : Nat := nth row col (0x80 * 2 ^ 24)

/-- The co-located summary of the picture before (R237, R303). -/
def State.summaryBefore (s : State) (a : Ann) (k : Nat) : List Byte :=
  s.summaryAt a.slot a.sub (pictureBefore a.picture) (coStripe a.ctu32 a.prevCtu k)

/-- The records of one row of 32 x 32 blocks, left to right. -/
def recordRow (s : State) (a : Ann) (rows : List (List Nat)) (row : Nat) (colocated : List Nat) : Nat → Nat → Option (Int × Int) → List Nat
  | 0, _, _ => []
  | n + 1, i, left =>
    let act := actOf (blockDiffs (columns (32 * i) 32 rows))
    match a.prevBuf with
    | none => absentRecord act :: recordRow s a rows row colocated n (i + 1) none
    | some p =>
      let size := s.size a.slot
      let v := preEstimate s a.slot a.sub a.buffer p (widthOf size / 4) (linesOf size / 4) (8 * i) (8 * row) (rows.length / 4)
        left (recordVector (recordIn colocated i))
      blockRecord v.1 v.2.1 v.2.2 act :: recordRow s a rows row colocated n (i + 1) (some (v.1, v.2.1))

/-- The records of a stripe, row by row. -/
def stripeRecords (s : State) (a : Ann) (luma : List (List Nat)) : List Nat :=
  let across := ceilDiv (widthOf (s.size a.slot)) 32
  let first := a.stripe * (ctuHeight a.ctu32 / 32)
  ((List.range (ceilDiv luma.length 32)).map (fun r =>
    let row := first + r
    recordRow s a ((luma.drop (32 * r)).take 32) row (s.recordRowAt a.slot a.sub (pictureBefore a.picture) a.prevCtu across row)
      across 0 none)).flatten

/-- A stripe summary (R241): the stripe's sums over its records, and FLAGS. -/
def summaryOf (picture flags : Nat) (recs : List Nat) : List Byte :=
  let acts := recs.map (· % 256)
  let costs := recs.map (fun r => r / 2 ^ 8 % 512)
  let static := (recs.filter (fun r => r / 2 ^ 8 = 0)).length
  leBytes 4 picture ++ leBytes 4 (acts.foldl (· + ·) 0) ++ leBytes 4 (costs.foldl (· + ·) 0) ++ leBytes 2 static
    ++ leBytes 1 (acts.foldl max 0) ++ leBytes 1 flags

/-- SUM_ACT of a stored summary (R241). -/
def summaryAct (b : List Byte) : Nat := leNat ((b.drop 4).take 4)

/-- The records and the summary of a stripe are stored, over those of the stripe three pictures before (R242). -/
def storeRecords (a : Ann) (recs : List Nat) (sum : List Byte) (s : State) : State :=
  let k := recordKey a.slot a.sub a.picture a.stripe
  let o := recordKey a.slot a.sub (a.picture + 1) a.stripe
  { s with records := Store.put (Store.put s.records [] o []) [] k recs, summary := Store.put (Store.put s.summary [] o []) [] k sum }

/-- The records of a pass and the summary of its stripe. -/
def putRecords (a : Ann) (recs : List Nat) (flags : Nat) (s : State) : State :=
  storeRecords a recs (summaryOf a.picture flags recs) s

/-- The co-located summary of the picture before as the stripe's own, with a bit of FLAGS set (R237, R238): its PICTURE is the stripe's. Where there
is none, its other bytes are free values. -/
def takeSummary (a : Ann) (flag : Nat) (s : State) : List Byte × State :=
  match s.summaryBefore a a.stripe with
  | [] =>
    let (b, t) := s.freeBytes 11
    (leBytes 4 a.picture ++ b ++ leBytes 1 (1 ||| flag), t)
  | old => (leBytes 4 a.picture ++ (old.drop 4).take 11 ++ leBytes 1 (leNat (old.drop 15) ||| flag), s)

/-- Quarter-resolution luma of a stripe is stored, 1.25 B per sample (R234). -/
def putQuarter (a : Ann) (luma : List (List Nat)) (s : State) : State :=
  let first := a.stripe * (ctuHeight a.ctu32 / 4)
  (List.range (luma.length / 4)).foldl (fun t i =>
    let row := quarterRow (sampleBits s a.slot) ((luma.drop (4 * i)).take 4) (widthOf (s.size a.slot) / 4)
    { t with quarter := Store.put t.quarter [] (quarterKey a.slot a.sub a.buffer (first + i)) (packBits 10 row) }) s

/-! ### Copies and proxy lines (R243, R245) -/

/-- Coefficients of a downscaling ratio, in 1/128 (R245). -/
def filterCoeffs : Nat → List Int
  | 4 => [-2, 6, 26, 34, 34, 26, 6, -2]
  | 2 => [-4, 12, 56, 56, 12, -4]
  | _ => [128]

/-- An input index mirrored about the edge samples 0 and `hi` (R245). -/
def mirror (hi x : Int) : Int :=
  let y := if x < 0 then -x else x
  if hi < y then 2 * hi - y else y

/-- The inputs of output j: r j - 2 onward, mirrored at the edges (R245). -/
def filterInputs (ratio : Nat) (hi : Int) (j : Nat) : List Nat :=
  if ratio = 1 then [j]
  else (List.range (filterCoeffs ratio).length).map (fun (i : Nat) => (mirror hi ((ratio * j : Nat) - 2 + (i : Int))).toNat)

/-- One filter stage: (sum + 64) >> 7, clipped to `bits` (R245). -/
def filterSum (ratio bits : Nat) (vals : List Nat) : Nat :=
  let sum := ((filterCoeffs ratio).zip vals).foldl (fun (t : Int) e => t + e.1 * (e.2 : Int)) 0
  (clampInt 0 (2 ^ bits - 1 : Nat) ((sum + 64) / 128)).toNat

/-- A row downscaled horizontally. -/
def scaleRow (ratio bits : Nat) (row : List Nat) : List Nat :=
  (List.range (row.length / ratio)).map (fun j =>
    filterSum ratio bits ((filterInputs ratio ((row.length : Int) - 1) j).map (fun x => nth row x 0)))

/-- Rows downscaled vertically to one. -/
def scaleRows (ratio bits : Nat) (rows : List (List Nat)) : List Nat :=
  (List.range (nth rows 0 []).length).map (fun i => filterSum ratio bits (rows.map (fun r => nth r i 0)))

/-- The component rows of a line: Y, Cb, Cr at the source's sampling. -/
def planes (s : State) (slot : Nat) (b : List Byte) : List (List Nat) :=
  let g := lineGroups s slot b
  if s.fld (CHIN.FMT_SAMPLING slot) = 0 then
    [(g.map (fun x => [nth x 1 0, nth x 3 0])).flatten, g.map (fun x => nth x 0 0), g.map (fun x => nth x 2 0)]
  else
    [(g.map (fun x => [nth x 1 0, nth x 4 0])).flatten, (g.map (fun x => [nth x 0 0, nth x 3 0])).flatten,
     (g.map (fun x => [nth x 2 0, nth x 5 0])).flatten]

/-- Component rows packed as pixel groups: 4:4:4 12-bit or 4:2:2 10-bit (R212). -/
def packPlanes (deep : Bool) (p : List (List Nat)) : List Byte :=
  let y := nth p 0 []
  let cb := nth p 1 []
  let cr := nth p 2 []
  ((List.range (y.length / 2)).map (fun i =>
    if deep then packBits 12 [nth cb (2 * i) 0, nth y (2 * i) 0, nth cr (2 * i) 0, nth cb (2 * i + 1) 0, nth y (2 * i + 1) 0,
                              nth cr (2 * i + 1) 0]
    else packBits 10 [nth cb i 0, nth y (2 * i) 0, nth cr i 0, nth y (2 * i + 1) 0])).flatten

/-- The format of a slot's source samples (R212). -/
def State.sourceFormat (s : State) (slot : Nat) : Format := { bits := sampleBits s slot, full := s.fld (CHIN.FMT_RANGE slot) = 1 }

/-- The format of a copy's samples (R243): 12 bits at 4:4:4, else 10. -/
def CopySet.format (t : CopySet) : Format := { bits := if t.deep then 12 else 10, full := t.full }

/-- A source line after stages 1 to 3 and the horizontal filter, in carried codes (R243, R245). -/
def convertedLine (s : State) (a : Ann) (t : CopySet) (ratio x : Nat) : List (List Nat) :=
  let src := s.sourceFormat a.slot
  let p := (planes s a.slot (s.line a.slot a.sub a.buffer x)).map (fun r => r.map (fun v => v * src.unit))
  (convertRows t src (s.fld (CHIN.FMT_SAMPLING a.slot) = 1) (s.fld (CHIN.FMT_COLOR a.slot)) t.format p).map
    (scaleRow ratio carriedBits)

/-- Line j of a copy (R243): the lines it reads through stages 1 to 4, mirrored beyond line `hi`, then rounded and clipped. -/
def copyBytes (s : State) (a : Ann) (t : CopySet) (ratio : Nat) (hi : Int) (j : Nat) : List Byte :=
  let rows := (filterInputs ratio hi j).map (convertedLine s a t ratio)
  packPlanes t.deep ((List.range 3).map (fun c =>
    (scaleRows ratio carriedBits (rows.map (fun r => nth r c []))).map (t.format.final (c != 0))))

/-- The key of a copy's line: `kind` 0 the mezzanine copy, 1 the proxy source. -/
def copyKey (kind slot sub buffer line : Nat) : Nat := (((kind * 8 + slot) * 16 + sub) * 4 + buffer) * 8192 + line

/-- A copy line stored. -/
def putCopy (kind : Nat) (a : Ann) (line : Nat) (b : List Byte) (s : State) : State :=
  { s with copies := Store.put s.copies [] (copyKey kind a.slot a.sub a.buffer line) b }

/-- The output lines of a copy whose last input line lies in lines `lo` to `hi` - 1 of the source (R245). -/
def linesDue (ratio outLines lo hi : Nat) (limit : Nat → Nat) : List Nat :=
  (List.range outLines).filter (fun j =>
    let last := if ratio = 4 then min (4 * j + 5) (limit j) else if ratio = 2 then min (2 * j + 3) (limit j) else j
    decide (lo ≤ last ∧ last < hi))

/-- The downscaling ratio of the mezzanine copy. -/
def CopySet.ratio (t : CopySet) : Nat := if t.half then 2 else 1

/-- The lines of the mezzanine copy that a pass writes, when MZE_COPY.EN is 1 for its picture (R234, R245). -/
def mezzDue (s : State) (a : Ann) (t : CopySet) : List Nat :=
  let lines := s.lines a.slot
  let h := ctuHeight a.ctu32
  if t.on then linesDue t.ratio (lines / t.ratio) (a.stripe * h) (min lines ((a.stripe + 1) * h)) (fun _ => lines - 1) else []

/-- The mezzanine copy's lines of a pass. -/
def mezzCopy (a : Ann) (s : State) : State :=
  let t := (s.pafSet a.slot a.grid).mezz
  (mezzDue s a t).foldl (fun u j => putCopy 0 a j (copyBytes s a t t.ratio ((s.lines a.slot : Int) - 1) j) u) s

/-- The proxy's downscaling ratio by SIZE (R245). -/
def proxyRatio : Nat → Nat
  | 0 => 4 | 1 => 2 | _ => 1

/-- The last source line of the proxy stripe that holds proxy line j. -/
def proxyLimit (lines ratio h j : Nat) : Nat := min lines ((j / h + 1) * h * ratio) - 1

/-- The lines of the proxy source that a pass writes, when PROXY.EN is 1 for its picture and the stripe belongs to PROXY.SUBSTREAM (R234,
R245). -/
def proxyDue (s : State) (a : Ann) (t : CopySet) : List Nat :=
  let lines := s.lines a.slot
  let h := ctuHeight a.ctu32
  let ratio := proxyRatio (s.size a.slot)
  if t.on ∧ t.sub = a.sub then linesDue ratio 1080 (a.stripe * h) (min lines ((a.stripe + 1) * h)) (proxyLimit lines ratio h) else []

/-- The proxy source's lines of a pass. -/
def proxyLines (a : Ann) (s : State) : State :=
  let t := (s.pafSet a.slot a.grid).proxy
  let ratio := proxyRatio (s.size a.slot)
  let last (j : Nat) : Int := (proxyLimit (s.lines a.slot) ratio (ctuHeight a.ctu32) j : Nat)
  (proxyDue s a t).foldl (fun u j => putCopy 1 a j (copyBytes s a t ratio (last j) j) u) s

/-- The yields of a completed pass (R234, R239 to R245); an uncorrectable word of the line store makes every record absent (R358). -/
def passYields (a : Ann) (absent : Bool) (s : State) : State :=
  let luma := stripeLuma s a.slot a.sub a.buffer a.stripe a.ctu32
  let t := putQuarter a luma s
  let flags := b2n a.prevBuf.isNone + 2 * b2n a.concealed
  let recs := stripeRecords t a luma
  let recs := if absent then recs.map (fun r => absentRecord r) else recs
  proxyLines a (mezzCopy a (putRecords a recs flags t))

/-- The copy lines and proxy lines of a concealed pass are the previous picture's (R237). -/
def concealCopies (a : Ann) (s : State) : State :=
  match a.prevBuf with
  | none => s
  | some p =>
    let again (kind : Nat) (t : State) (l : Nat) : State := putCopy kind a l (Store.at t.copies [] (copyKey kind a.slot a.sub p l)) t
    let e := s.pafSet a.slot a.grid
    (proxyDue s a e.proxy).foldl (again 1) ((mezzDue s a e.mezz).foldl (again 0) s)

/-- A concealed pass (R237): absent records, the co-located summary of the previous picture with CONCEALED, the previous
picture's copy lines, PASS_CONCEAL raised and counted. -/
def passConceal (a : Ann) (s : State) : State :=
  let across := ceilDiv (widthOf (s.size a.slot)) 32
  let rows := ceilDiv (stripeLines (s.lines a.slot) a.stripe a.ctu32).length 32
  let (sum, t) := takeSummary a 2 s
  let t := storeRecords a (List.replicate (across * rows) (absentRecord 0)) sum t
  let t := concealCopies a t
  let t := t.onStats a.slot a.grid (fun x => { x with passConc := x.passConc + 1 })
  (t.satFld (PAF.STAT_CONCEALS a.slot)).raise (Pg.paf a.slot) 3

/-- A repeat's stripe has no pass (R238): zero vectors with COST 0 and the repeated picture's ACT, block by block; the summary copies its
summary with REPEAT set. In the first picture after acquisition or a step every record is absent. -/
def repeatRecords (a : Ann) (s : State) : State :=
  let across := ceilDiv (widthOf (s.size a.slot)) 32
  let first := a.stripe * (ctuHeight a.ctu32 / 32)
  let rows := ceilDiv (stripeLines (s.lines a.slot) a.stripe a.ctu32).length 32
  let recs := ((List.range rows).map (fun r =>
    let old := s.recordRowAt a.slot a.sub (pictureBefore a.picture) a.prevCtu across (first + r)
    (List.range across).map (fun i => recordIn old i % 256))).flatten
  let recs := if a.prevBuf.isNone then recs.map absentRecord else recs
  let (sum, t) := takeSummary a 4 s
  storeRecords a recs sum t

/-- ENG_CLK cycles of a pass: 32 pixels per cycle (R235). -/
def passCycles (s : State) (a : Ann) : Nat :=
  widthOf (s.size a.slot) * (stripeLines (s.lines a.slot) a.stripe a.ctu32).length / 32

/-- ENG_CLK cycles as TIME_CLK cycles at the clock in force, rounded up. -/
def engToTime (s : State) (n : Nat) : Nat := ceilDiv (n * 400000000) s.engHz

/-! ### Conversion tables (R246 to R249) -/

/-- The registers of table k of slot n. -/
def lutStat (n k : Nat) : Nat := Pg.paf n + 0x60 + 0x18 * k

/-- The entries of a table in HBM: bits [15:4] of each component (R246). -/
def tableEntries (s : State) (addr : Nat) : List Nat :=
  (List.range 35937).map (fun i =>
    let e := leNat (s.hbmBytes (addr + 8 * i) 8)
    (e / 16 % 4096) + (e / 2 ^ 20 % 4096) * 2 ^ 12 + (e / 2 ^ 36 % 4096) * 2 ^ 24)

/-- A write of LUTk_CTRL.LOAD (R247). -/
def lutLoad (n k : Nat) (s : State) : State × Code :=
  if s.fld (PAF.LUT_STAT_BUSY n k) = 1 ∨ s.fld (PAF.LUT_STAT_PENDING n k) = 1 then (s, .busy)
  else
    let a := s.fld (PAF.LUT_ADDR_ADDR n k)
    if a % 64 ≠ 0 ∨ 0x800000000 < a + 287496 then (s, .decodeError)
    else ({ s with loads := Store.put s.loads 0 (2 * n + k) a }.setFld (PAF.LUT_STAT_BUSY n k) 1, .ok)

/-- A pending table becomes active; the nodes of the old one that could not be read no longer matter (R248, R358). -/
def lutSwap (n k : Nat) (s : State) : State :=
  let e := Store.at s.luts [] (lutKey n k 1)
  let t := closeBad n k s
  let t := { t with luts := Store.put (Store.put t.luts [] (lutKey n k 0) e) [] (lutKey n k 1) [] }
  let t := (t.wrapFld (PAF.LUT_STAT_GEN n k)).setFld (PAF.LUT_STAT_PENDING n k) 0
  (t.setFld (PAF.LUT_STAT_STALE_RUN n k) 0).raise (Pg.paf n) 0

/-- The CODE of a Concourse response, as R138 maps it. -/
def respCode : Resp → Code
  | .okay => .ok | .decerr => .decodeError | .permerr => .permission | .frozen => .frozen | .mreset => .stale | .timeout => .busy

/-- LUT_LOAD_DONE (R247, R248): the shadow is complete and pending, and active at once on a stopped slot; a response other than
OKAY or an uncorrectable error aborts the load. Which CODE an uncorrectable error records is not stated: a free value. While PAF, master 25, is
frozen or in a reset's drain its reads get no OKAY: they stall, or return FROZEN or MRESET (R142, R146). -/
def execLutLoadDone (slot : Fin 8) (table : Fin 2) (resp : Resp) (uncorrectable : Bool) (s : State) : Out :=
  finish s <|
    let n := slot.val
    let k := table.val
    if s.inService ∧ s.fld (PAF.LUT_STAT_BUSY n k) = 1 ∧ (resp ≠ .okay ∨ s.issues 25) then
      let t := s.setFld (PAF.LUT_STAT_BUSY n k) 0
      if resp ≠ .okay then
        let t := if resp = .timeout then t else countError 25 t
        (t.setFld (PAF.LUT_STAT_RESULT n k) (respCode resp).num).raise (Pg.paf n) 1
      else if uncorrectable then
        let (w, t) := t.freeWord
        (t.setFld (PAF.LUT_STAT_RESULT n k) (1 + w.toNat % 8)).raise (Pg.paf n) 1
      else
        let t := { t with luts := Store.put t.luts [] (lutKey n k 1) (tableEntries t (Store.at s.loads 0 (2 * n + k))) }
        let t := (t.setFld (PAF.LUT_STAT_RESULT n k) 0).setFld (PAF.LUT_STAT_PENDING n k) 1
        if t.slotRuns n then t else lutSwap n k t
    else s

/-- A picture boundary and table k (R248): a pending table swaps; a picture whose boundary passes while a load is BUSY is stale,
and the fourth in a run raises STALE_LUT. -/
def lutBoundary (n k grid : Nat) (s : State) : State :=
  if s.fld (PAF.LUT_STAT_PENDING n k) = 1 then lutSwap n k s
  else if s.fld (PAF.LUT_STAT_BUSY n k) = 1 then
    let t := s.onStats n grid (fun x => { x with stale := orBit x.stale (1 + k) })
    let run := s.fld (PAF.LUT_STAT_STALE_RUN n k)
    let t := t.setFld (PAF.LUT_STAT_STALE_RUN n k) (min 15 (run + 1))
    if run + 1 = 4 then t.raise (Pg.paf n) 2 else t
  else s

end Sys2Proof.Machine
end

