-- ==== Sys2Proof/Machine/Regions.lean ====
section
/-!
DEFINITION. Machine/Regions.lean: outputs as the Dispatcher sees them: their stripes, instants and references (R257, R268, R281, R282,
R289, R290, R336), the region grid of a mezzanine output (R330, R331), and rates and bucket sizes (R300).
-/
namespace Sys2Proof.Machine

/-- The record of an output. -/
def State.out (s : State) (o : Nat) : OutRun := Store.at s.outs {} o

/-- That record replaced. -/
def State.setOut (s : State) (o : Nat) (r : OutRun) : State := { s with outs := Store.put s.outs {} o r }

/-- That record changed. -/
def State.onOut (s : State) (o : Nat) (f : OutRun → OutRun) : State := s.setOut o (f (s.out o))

/-- The lines of an output's picture as its stripes count them (R12, R282). -/
def State.outLines (s : State) (o : Nat) : Nat := if isProxy o then 1080 else s.lines (outSlot o)

/-- The columns of an output's picture. -/
def State.outWidth (s : State) (o : Nat) : Nat := if isProxy o then 1920 else widthOf (s.size (outSlot o))

/-- Stripes per picture of an output. -/
def State.outStripes (s : State) (o : Nat) (ctu32 : Bool) : Nat := stripesOf (s.outLines o) ctu32

/-- CTUs per stripe of an output. -/
def State.outCtus (s : State) (o : Nat) (ctu32 : Bool) : Nat := ctusAcross (s.outWidth o) ctu32

/-- CTU columns per picture rate period: the picture period of an output in seconds, as numerator and denominator in ps (R181). -/
def State.outPeriod (s : State) (o : Nat) : Nat × Nat := refPeriod (s.rate (outSlot o))

/-- The picture at a grid point of an output. -/
def State.picOf (s : State) (o grid : Nat) : Option CodedPic := (s.out o).pics.find? (fun p => p.grid = grid)

/-- That picture changed. -/
def State.onCoded (s : State) (o grid : Nat) (f : CodedPic → CodedPic) : State :=
  s.onOut o (fun r => { r with pics := r.pics.map (fun p => if p.grid = grid then f p else p) })

/-- A seal flag of R376 set on a picture. -/
def State.flagPic (s : State) (o grid k : Nat) : State := s.onCoded o grid (fun p => { p with flags := orBit p.flags k })

/-! ### Instants of a stripe (R289, R290, R336) -/

/-- The instant `x2` half lines after grid point `k`, truncated to units of 2^-16 ns (R290). -/
def instant16 (rate lines k x2 : Nat) : Nat :=
  let p := refPeriod rate
  (k * (2 * lines) + x2) * p.1 * Config.unitsPerNs / (2 * lines * p.2 * 1000) / 65536 * 65536

/-- The deadline of stripe `j` of the picture at `grid` (R289). -/
def State.deadlineOf (s : State) (o grid j : Nat) (ctu32 : Bool) : Nat :=
  instant16 (s.rate (outSlot o)) (s.outLines o) grid ((2 * j + (2 * s.outDAs o ctu32 - 1)) * ctuHeight ctu32)

/-- The launch of stripe `j`; a mezzanine band's is one stripe period later (R289, R336). -/
def State.launchOf (s : State) (o grid j : Nat) (ctu32 : Bool) : Nat :=
  instant16 (s.rate (outSlot o)) (s.outLines o) grid
    ((2 * j + 2 * s.outDAs o ctu32 + (if isMezz o then 2 else 0)) * ctuHeight ctu32)

/-- The TIME_CLK cycle at which the counter first equals or passes an instant, at the increment in force (R158, R290). -/
def State.cycleOf (s : State) (t : Nat) : Nat := if t ≤ s.ctr then s.cyc else s.cyc + ceilDiv (t - s.ctr) (max 1 (s.fld PTP.INCR_INCR))

/-- The T7 time of a stripe at the clock in force, in TIME_CLK cycles (R289). -/
def State.t7Cycles (s : State) (o : Nat) (ctu32 : Bool) : Nat :=
  engToTime s (4096 + s.outCtus o ctu32 * (if ctu32 then 32 else 128))

/-- One stripe period of an output as TIME_CLK cycles, from its grid (R1). -/
def State.periodCycles (s : State) (o : Nat) (ctu32 : Bool) : Nat :=
  instantAt (s.rate (outSlot o)) (s.outLines o) 0 (2 * ctuHeight ctu32) / s.fld PTP.INCR_INCR

/-! ### References (R257, R268, R281) -/

/-- Whether a proxy is coded in two temporal layers: above 60 pictures per second (R281). -/
def State.layered (s : State) (o : Nat) : Bool := isProxy o && decide (10 ≤ s.rate (outSlot o))

/-- REFS of an output. -/
def State.refsOf (s : State) (o : Nat) : Nat :=
  if isProxy o then s.fld (STC.PROXY_CODEC_REFS (outSlot o)) else s.fld (STC.CODEC_REFS (outSlot o))

/-- GDR_PERIOD of an output. -/
def State.gdrOf (s : State) (o : Nat) : Nat :=
  if isProxy o then s.fld (STC.PROXY_CODEC_GDR_PERIOD (outSlot o)) else s.fld (STC.CODEC_GDR_PERIOD (outSlot o))

/-- The references of the picture at `index` of its sequence: how far back, and the vertical range at T0. -/
def State.references (s : State) (o index : Nat) : List (Nat × Nat) :=
  let back : List (Nat × Nat) :=
    if s.layered o then (if index % 2 = 0 then [(2, 128), (4, 32)] else [(1, 128), (3, 32)]) else [(1, 128), (2, 32)]
  (back.take (s.refsOf o)).filter (fun b => b.1 ≤ index)

/-- How far ahead the pictures lie that refer to the picture at `index`. -/
def State.referrers (s : State) (o index : Nat) : List Nat :=
  if s.layered o then
    (if index % 2 = 0 then (if s.refsOf o = 2 then [1, 2, 3, 4] else [1, 2]) else [])
  else [1, 2].take (s.refsOf o)

/-- The pictures of the same coded video sequence before `p`, newest first. -/
def earlierPics (pics : List CodedPic) (p : CodedPic) : List CodedPic :=
  ((pics.dropWhile (fun q => q.grid ≠ p.grid)).drop 1).filter (fun q => q.index < p.index)

/-- The stripes of a reference that stripe `k` can reach at a vertical range (R257). -/
def reach (lines k range : Nat) (ctu32 : Bool) : List Nat :=
  let h := ctuHeight ctu32
  let lo := (k * h - (range + 3)) / h
  let hi := (min (lines - 1) (min lines ((k + 1) * h) - 1 + range + 4)) / h
  (List.range (hi + 1 - lo)).map (· + lo)

/-! ### Refresh bands (R271, R274, R281) -/

/-- The refresh band of the picture at `index`, as the first column and the column after the last; empty where it has none. -/
def State.bandOf (s : State) (o index cols : Nat) : Nat × Nat :=
  let g := max 1 (s.gdrOf o)
  if s.layered o ∧ index % 2 = 1 then (0, 0)
  else
    let i := (if s.layered o then index / 2 else index) % g
    let w := ceilDiv cols g
    (min cols (i * w), min cols ((i + 1) * w))

/-! ### The region grid (R330, R331) -/

/-- Whether a slot's mezzanine outputs code a half-scale copy; it cannot change while one runs (R244). -/
def State.mzHalf (s : State) (slot : Nat) : Bool := s.fld (PAF.MZE_COPY_EN slot) = 1 && s.fld (PAF.MZE_COPY_SCALE slot) = 1

/-- Width of the picture a mezzanine output codes. -/
def State.mzWidth (s : State) (slot : Nat) : Nat :=
  if s.mzHalf slot then widthOf (s.size slot) / 2 else widthOf (s.size slot)

/-- Height of the picture a mezzanine output codes. -/
def State.mzHeight (s : State) (slot : Nat) : Nat :=
  if s.mzHalf slot then s.lines slot / 2 else s.lines slot

/-- Whether the coded samples are 4:4:4 12-bit. -/
def State.mz444 (s : State) (slot : Nat) : Bool :=
  if s.fld (PAF.MZE_COPY_EN slot) = 1 then s.fld (PAF.MZE_COPY_SAMPLING slot) = 1 else s.fld (CHIN.FMT_SAMPLING slot) = 1

/-- First column of region column `j`. -/
def gridX (w cols j : Nat) : Nat := 2 * (j * w / (2 * cols))

/-- First line of region row `i`. -/
def gridY (h rows i : Nat) : Nat := i * h / rows

/-- Slices of a region of `h` lines: 16 lines each, the last the rest (R332). -/
def sliceCount (h : Nat) : Nat := ceilDiv h 16

/-- Lines of slice `x` of a region of `h` lines. -/
def sliceLines (h x : Nat) : Nat := min 16 (h - 16 * x)

/-- Whether line `y` of the coded picture is available after stripe `k` (R330). -/
def State.lineAvailable (s : State) (slot k y : Nat) (ctu32 : Bool) : Bool :=
  let lines := s.lines slot
  let got := min lines ((k + 1) * ctuHeight ctu32)
  if s.mzHalf slot then decide (min (2 * y + 3) (lines - 1) < got)
  else decide (y < got)

/-- The last line that slice `x` of the region row from `y0` to `y1` - 1 needs (R330). -/
def sliceNeeds (y0 y1 x : Nat) : Nat := if x + 1 = sliceCount (y1 - y0) then y1 - 1 else y0 + 16 * (x + 1)

/-- The slices that stripe `k` completes, as (region row, slice) pairs in order (R330). -/
def State.slicesOf (s : State) (slot sub k : Nat) (ctu32 : Bool) : List (Nat × Nat) :=
  let rows := s.fld (STC.MZOUT_ROWS slot sub)
  let hc := s.mzHeight slot
  ((List.range rows).map (fun i =>
    let y0 := gridY hc rows i
    let y1 := gridY hc rows (i + 1)
    ((List.range (sliceCount (y1 - y0))).filter (fun x =>
      let y := sliceNeeds y0 y1 x
      s.lineAvailable slot k y ctu32 && (k = 0 || !s.lineAvailable slot (k - 1) y ctu32))).map (fun x => (i, x)))).flatten

/-- Pixels that the MEZZ task of stripe `k` codes (R328). -/
def State.mzPixels (s : State) (slot sub k : Nat) (ctu32 : Bool) : Nat :=
  let rows := s.fld (STC.MZOUT_ROWS slot sub)
  let hc := s.mzHeight slot
  ((s.slicesOf slot sub k ctu32).map (fun e =>
    sliceLines (gridY hc rows (e.1 + 1) - gridY hc rows e.1) e.2 * s.mzWidth slot)).foldl (· + ·) 0

/-- The cycle bound of a MEZZ task of `x` pixels (R328). -/
def mzBound (x : Nat) : Nat := 2048 + ceilDiv x 4

/-! ### Codecs and rates (R258, R280, R300) -/

/-- Whether an output is coded as HEVC: a proxy always is (R258, R280). -/
def State.hevc (s : State) (o : Nat) : Bool := isProxy o || s.fld (STC.CODEC_CODEC (outSlot o)) = 1

/-- The chroma format of an output as CODEC.CHROMA codes it: a proxy's is 4:2:0 (R258, R280). -/
def State.chroma (s : State) (o : Nat) : Nat := if isProxy o then 0 else s.fld (STC.CODEC_CHROMA (outSlot o))

/-- The drain rate of an output in bit/s: R, or the cap of a pooled member (R300). -/
def State.drain (s : State) (o : Nat) : Nat :=
  if isProxy o then s.fld (STC.PROXY_OUT_RATE_KBPS (o - 128)) * 1000
  else if s.fld (STC.OUT_POOLED (o / 16) (o % 16)) = 1 then s.fld (STC.OUT_CAP_MBPS (o / 16) (o % 16)) * 1000000
  else s.fld (STC.OUT_RATE_KBPS (o / 16) (o % 16)) * 1000

/-- The bucket window W in stripe periods (R300). -/
def bucketWindow (d : Nat) (ctu32 : Bool) : Nat := if ctu32 then d - 2 else d - 3

/-- The picture period of a rate code in seconds. -/
def pictureSeconds (rate : Nat) : Rat := ((refPeriod rate).1 : Rat) / ((refPeriod rate).2 : Rat) / 1000000000000

/-- An output's stripe period in seconds (R1, R282). -/
def State.stripeSeconds (s : State) (o : Nat) (ctu32 : Bool) : Rat :=
  pictureSeconds (s.rate (outSlot o)) * (ctuHeight ctu32 : Rat) / (s.outLines o : Rat)

/-- The bucket size B in bits (R300). -/
def State.bucketSize (s : State) (o : Nat) (ctu32 : Bool) : Rat :=
  (s.drain o : Rat) * (bucketWindow (s.outDAs o ctu32) ctu32 : Rat) * s.stripeSeconds o ctu32

end Sys2Proof.Machine
end

