-- ==== Sys2Proof/Machine/Bay.lean ====
section
/-!
DEFINITION. Machine/Bay.lean: what a bay's start work loads: the coded samples of a stripe and the vectors that seed its search (spec 10 R242,
R251, R259, R278 to R282).
-/
namespace Sys2Proof.Machine

/-! ### Coded samples (R259) -/

/-- 4:4:4 to 4:2:2 (R259 step 1): (c[2i - 1] + 2 c[2i] + c[2i + 1] + 2) >> 2, mirrored about the first and last columns. -/
def halveRow (row : List Nat) : List Nat :=
  let at' (x : Int) : Nat := nth row (mirror ((row.length : Int) - 1) x).toNat 0
  (List.range (row.length / 2)).map (fun (i : Nat) => (at' (2 * (i : Int) - 1) + 2 * at' (2 * i) + at' (2 * (i : Int) + 1) + 2) / 4)

/-- 4:2:2 to 4:2:0 (R259 step 2): chroma row j = (c[2j] + c[2j + 1] + 1) >> 1. -/
def halveRows : List (List Nat) → List (List Nat)
  | a :: b :: l => (a.zip b).map (fun e => (e.1 + e.2 + 1) / 2) :: halveRows l
  | _ => []

/-- 12-bit to 10-bit (R259 step 3): (x + 2) >> 2, clipped to 1,023. -/
def tenBits (x : Nat) : Nat := min 1023 ((x + 2) / 4)

/-- The coded samples of source rows, each Y, Cb, Cr: the planes Y, Cb, Cr in the output's chroma format (0 4:2:0, 1 4:2:2, 2 4:4:4). -/
def codedPlanes (chroma : Nat) (deep : Bool) (rows : List (List (List Nat))) : List (List (List Nat)) :=
  let plane (c : Nat) : List (List Nat) := rows.map (fun r => nth r c [])
  let narrow (p : List (List Nat)) : List (List Nat) := if deep ∧ chroma ≠ 2 then p.map halveRow else p
  let low (p : List (List Nat)) : List (List Nat) := if chroma = 0 then halveRows p else p
  let ten (p : List (List Nat)) : List (List Nat) := if deep then p.map (fun r => r.map tenBits) else p
  [ten (plane 0), ten (low (narrow (plane 1))), ten (low (narrow (plane 2)))]

/-- The component rows of 4:2:2 10-bit pixel groups. -/
def planes422 (b : List Byte) : List (List Nat) :=
  let g := groupSamples 5 10 4 (b.length / 5) b
  [(g.map (fun x => [nth x 1 0, nth x 3 0])).flatten, g.map (fun x => nth x 0 0), g.map (fun x => nth x 2 0)]

/-- The buffer whose lines a stripe codes: its picture's, or those of the picture before for a STALLED stripe, which is coded as concealed from it
(R224). -/
def Ann.sourceBuffer (a : Ann) : Nat := if a.stalled then a.prevBuf.getD a.buffer else a.buffer

/-- The coded samples of a task's stripe: of the source as ING wrote it, or of the proxy source (R259, R280). -/
def State.codedSamples (s : State) (t : Task) : List (List (List Nat)) :=
  let slot := outSlot t.out
  let lines := stripeLines (s.outLines t.out) t.stripe t.ann.ctu32
  if isProxy t.out then
    codedPlanes 0 false (lines.map (fun l => planes422 (Store.at s.copies [] (copyKey 1 slot t.ann.sub t.ann.sourceBuffer l))))
  else
    codedPlanes (s.chroma t.out) (s.fld (CHIN.FMT_SAMPLING slot) = 1)
      (lines.map (fun l => planes s slot (s.line slot t.ann.sub t.ann.sourceBuffer l)))

/-! ### Seeds (R278, R279, R282) -/

/-- The source blocks whose records serve block (row, col) of an output's picture: its own, or for the proxy those at the centre of the
source blocks it covers (R282). -/
def sourceBlocks (o ratio row col : Nat) : List (Nat × Nat) :=
  if isProxy o = false ∨ ratio = 1 then [(row, col)]
  else if ratio = 2 then [(2 * row + 1, 2 * col + 1)]
  else [(4 * row + 1, 4 * col + 1), (4 * row + 1, 4 * col + 2), (4 * row + 2, 4 * col + 1), (4 * row + 2, 4 * col + 2)]

/-- The vectors of the records that serve a block, in whole luma samples of the output: 4 x (MVX, MVY), divided by the proxy's scale
ratio toward zero (R279, R282). Absent records give none. -/
def State.blockVectors (s : State) (a : Ann) (o picture : Nat) (ctu32 : Bool) (row col : Nat) : List (Int × Int) :=
  let ratio := if isProxy o then proxyRatio (s.size a.slot) else 1
  let across := ceilDiv (widthOf (s.size a.slot)) 32
  (sourceBlocks o ratio row col).filterMap (fun e =>
    (recordVector (recordIn (s.recordRowAt a.slot a.sub picture ctu32 across e.1) e.2)).map (fun v =>
      (4 * v.1.tdiv ratio, 4 * v.2.tdiv ratio)))

/-- A row of blocks of an output's picture. -/
def State.vectorRow (s : State) (a : Ann) (o picture : Nat) (ctu32 : Bool) (row : Nat) : List (List (Int × Int)) :=
  (List.range (ceilDiv (s.outWidth o) 32)).map (s.blockVectors a o picture ctu32 row)

/-- The reference search windows of a stripe (R251 step 1): of each reference, the reconstructed stripes within the reach of R257. -/
def State.searchWindows (s : State) (t : Task) : List (List Byte) :=
  match s.picOf t.out t.ann.grid with
  | none => []
  | some p =>
    ((s.references t.out p.index).map (fun b => match (earlierPics (s.out t.out).pics p).find? (fun q => q.index + b.1 = p.index) with
      | none => []
      | some q => (reach (s.outLines t.out) t.stripe b.2 t.ann.ctu32).map (Store.at q.recon []))).flatten

/-- Start work of a bay on a task (R251 step 1, R242): the samples, the search windows, and the records of the stripe, of the row of blocks above it
and of the co-located blocks of the picture before. A record overwritten by now is absent. -/
def State.startWork (s : State) (t : Task) (r : BayRun) : BayRun :=
  let a := t.ann
  let per := ctuHeight a.ctu32 / 32
  let first := t.stripe * per
  { r with
    source := s.codedSamples t
    windows := s.searchWindows t
    own := (List.range per).map (fun i => s.vectorRow a t.out a.picture a.ctu32 (first + i))
    above := if first = 0 then [] else s.vectorRow a t.out a.picture a.ctu32 (first - 1)
    before := (List.range per).map (fun i => s.vectorRow a t.out (pictureBefore a.picture) a.prevCtu (first + i)) }

/-- Seeds per reference at a tread, their whole-sample refinement, and the vector range of reference 1 in columns and lines (R278). -/
def seedCount (tread : Nat) : Nat := nth [8, 7, 6, 5, 4, 3, 1, 0] tread 0

/-- The whole-sample refinement around each seed (R278). -/
def seedRefine (tread : Nat) : Nat := nth [8, 6, 4, 4, 2, 2, 1, 0] tread 0

/-- The vector range of reference 1 at a tread: none where it is merge only (R278). -/
def refOneRange (tread : Nat) : Option (Nat × Nat) :=
  nth [some (256, 32), some (192, 32), some (128, 32), some (64, 16), some (32, 16), none, none, none] tread none

/-- A list without the entries it already held. -/
def noRepeats {α : Type} [DecidableEq α] (l : List α) : List α :=
  l.foldl (fun a x => if x ∈ a then a else a ++ [x]) []

/-- The seeds of block (row, col) of a stripe for reference `ref`, in the order of R279: its own record, AMVP predictor 0, the records to the
left and above, AMVP predictor 1, the co-located record of the picture before, the record to the right, the zero vector. Absent and repeated
seeds are skipped; for reference 1 each is doubled and clipped to its range. `unit` is the coding unit's place and size, by which the standard
gives its AMVP predictors. -/
def seedsOf (r : BayRun) (t : Task) (tread ref row col : Nat) (unit : List Nat) : List (Int × Int) :=
  let line := nth r.own row []
  let upper := if row = 0 then r.above else nth r.own (row - 1) []
  let amvp (k : Nat) : List (Int × Int) := (Config.amvp ([t.out, t.ann.grid, t.stripe, row, col, ref, k] ++ unit)).toList
  let left := if col = 0 then [] else nth line (col - 1) []
  let all := nth line col [] ++ amvp 0 ++ left ++ nth upper col [] ++ amvp 1 ++ nth (nth r.before row []) col [] ++ nth line (col + 1) []
    ++ [(0, 0)]
  let all := if ref = 0 then all
    else match refOneRange tread with
      | none => []
      | some (x, y) => all.map (fun v => (clampInt (-(x : Int)) x (2 * v.1), clampInt (-(y : Int)) y (2 * v.2)))
  (noRepeats all).take (seedCount tread)

/-- The seeds of coding units that are the 32 x 32 blocks of CTUs `first` to `last` - 1 of a stripe, block by block and reference by reference. -/
def segmentSeeds (r : BayRun) (t : Task) (refs tread first last : Nat) : List (List (Int × Int)) :=
  let per := ctuHeight t.ann.ctu32 / 32
  ((List.range (last - first)).map (fun c => ((List.range (per * per)).map (fun b =>
    (List.range refs).map (fun ref => seedsOf r t tread ref (b / per) ((first + c) * per + b % per) [0, 0, 32, 32]))).flatten)).flatten

end Sys2Proof.Machine
end

