-- ==== Sys2Proof/Machine/Flags.lean ====
section
/-!
DEFINITION. Machine/Flags.lean: check values (R363, R380, R381) and the flags and bytes of a frame seal (R374 to R376).
-/
namespace Sys2Proof.Machine

/-! ### CRCs (R380) -/

/-- One bit of a reflected CRC: `poly` is the polynomial with its bits reversed. -/
def crcBitR (poly r : Nat) : Nat := if r % 2 = 1 then (r / 2) ^^^ poly else r / 2

/-- One bit of an unreflected CRC of `w` bits. -/
def crcBitL (w poly r : Nat) : Nat := if r / 2 ^ (w - 1) % 2 = 1 then (r * 2 % 2 ^ w) ^^^ poly else r * 2 % 2 ^ w

/-- `n` bits. -/
def crcBits (step : Nat → Nat) : Nat → Nat → Nat
  | 0, r => r
  | n + 1, r => crcBits step n (step r)

/-- One byte into a reflected CRC register. -/
def crcByteR (poly r b : Nat) : Nat := crcBits (crcBitR poly) 8 (r ^^^ b)

/-- One byte into an unreflected CRC register. -/
def crcByteL (w poly r b : Nat) : Nat := crcBits (crcBitL w poly) 8 (r ^^^ (b * 2 ^ (w - 8)))

/-- One byte into the register of the CRC that POLY names (R380). -/
def crcByte (poly r b : Nat) : Nat :=
  if poly = 0 then crcByteR 0xEDB88320 r b
  else if poly = 1 then crcByteR 0x82F63B78 r b
  else if poly = 2 then crcByteL 16 0x1021 r b
  else crcByteL 64 0x42F0E1EBA9EA3693 r b

/-- The initial value of a CRC (R380). -/
def crcInit (poly : Nat) : Nat := if poly = 0 ∨ poly = 1 then 0xFFFFFFFF else if poly = 2 then 0xFFFF else 0

/-- Bytes into a CRC register, in order. -/
def crcFeed (poly : Nat) : List Byte → Nat → Nat
  | [], r => r
  | b :: l, r => crcFeed poly l (crcByte poly r b.toNat)

/-- The CRC-32 of MPEG-2 sections (ISO/IEC 13818-1, named by R366): polynomial 0x04C11DB7, unreflected, no final XOR. -/
def crcMpeg (l : List Byte) : Nat := l.foldl (fun r b => crcByteL 32 0x04C11DB7 r b.toNat) 0xFFFFFFFF

/-! ### The frame seal (R374 to R376) -/

/-- Bits of FLAGS (R376). -/
def flagRepeat : Nat := 0
def flagConcealed : Nat := 1
def flagFloored : Nat := 2
def flagSuspect : Nat := 3
def flagTime : Nat := 4
def flagStale : Nat := 5

/-- The 32 seal bytes, big-endian (R374): `capture` is the picture's capture time in counter units, `crc` the running register. -/
def sealBytes (stream picture alive flags capture length crc : Nat) : List Byte :=
  beBytes 1 1 ++ beBytes 1 0 ++ beBytes 2 stream ++ beBytes 4 picture ++ beBytes 2 alive ++ beBytes 2 flags
    ++ beBytes 6 (secOf capture) ++ beBytes 4 (nsOf capture) ++ beBytes 4 length ++ beBytes 4 (crc ^^^ 0xFFFFFFFF) ++ beBytes 2 0

end Sys2Proof.Machine
end

