-- ==== Sys2Proof/Machine/Dispatcher.lean ====
section
/-!
DEFINITION. Machine/Dispatcher.lean: task slots, chain tags, ready lists, creation and dispatch (spec 12), and the end of a PAF pass
(R234 to R238).
-/
namespace Sys2Proof.Machine

/-! ### Tags (R319) -/

/-- The chain tag of a picture of an output. -/
def State.tagOf (s : State) (o grid : Nat) : Option (Nat × Tag) := s.tags.find? (fun e => e.2.out = o && e.2.grid = grid)

/-- That tag changed. -/
def State.onTag (s : State) (o grid : Nat) (f : Tag → Tag) : State :=
  { s with tags := s.tags.map (fun e => if e.2.out = o ∧ e.2.grid = grid then (e.1, f e.2) else e) }

/-- A stripe number added to a bitmap. -/
def addBit (l : List Nat) (k : Nat) : List Nat := if k ∈ l then l else k :: l

/-- Whether stripes of a tag's picture are still to be announced, or their announcement is held. -/
def State.moreStripes (s : State) (t : Tag) : Bool :=
  let slot := outSlot t.out
  let sub := s.outSub t.out
  s.held.any (fun a => a.slot = slot && a.sub = sub && a.grid = t.grid) ||
    (s.sub slot sub).pics.any (fun p => p.grid = t.grid && decide (p.announced < stripesOf (s.lines slot) p.ctu32))

/-- Whether the run of an output that coded the picture at a grid point is over (R319): the output does not run, has begun no picture since it was
started again, or a later picture is the first of another run. -/
def State.runOver (s : State) (o grid : Nat) : Bool :=
  let r := s.out o
  !s.outRuns o || r.fresh || (r.pics.takeWhile (fun q => q.grid ≠ grid)).any CodedPic.first

/-- Whether the tag of a run that is over waits for nothing more: its remaining stripes never come and it has no slot (R319). -/
def State.tagOver (s : State) (t : Tag) : Bool :=
  s.runOver t.out t.grid && !s.moreStripes t && !s.tasks.any (fun e => e.2.out = t.out && e.2.ann.grid = t.grid)

/-- Whether the later pictures that may refer to `p` are all coded, or will never be (R319). -/
def State.referrersDone (s : State) (o : Nat) (p : CodedPic) : Bool :=
  let r := s.out o
  let later := (r.pics.takeWhile (fun q => q.grid ≠ p.grid)).reverse
  let same := later.takeWhile (fun q => q.index ≠ 0)
  let ended := decide (same.length < later.length) || s.runOver o p.grid
  (s.referrers o p.index).all (fun d =>
    match same.find? (fun q => q.index = p.index + d) with
    | some q => (match s.tagOf o q.grid with
      | some (_, t) => decide (t.enc.length = t.stripes) || s.tagOver t
      | none => true)
    | none => ended)

/-- Whether a tag can be freed (R319): its picture is assembled and no picture will refer to it. The tag of a run that is over, whose remaining
stripes may never come, is freed with its last slot. -/
def State.tagFree (s : State) (t : Tag) : Bool :=
  let coded := if s.runOver t.out t.grid then s.tagOver t else decide (t.asm.length = t.stripes)
  coded && (isMezz t.out ||
    match s.picOf t.out t.grid with
    | some p => s.referrersDone t.out p
    | none => true)

/-- Tags that can be freed are freed; TAGS.IN_USE follows. -/
def freeTags (s : State) : State :=
  let t := { s with tags := s.tags.filter (fun e => !s.tagFree e.2) }
  t.setFld DSP.TAGS_IN_USE t.tags.length

/-! ### Tasks (R316, R317, R320, R321) -/

/-- A task by slot index. -/
def State.task (s : State) (i : Nat) : Option Task :=
  match s.tasks.find? (fun e => e.1 = i) with
  | some e => some e.2
  | none => none

/-- That task replaced. -/
def State.setTask (s : State) (i : Nat) (t : Task) : State :=
  { s with tasks := s.tasks.map (fun e => if e.1 = i then (i, t) else e) }

/-- KIND of R316. -/
def TaskKind.num : TaskKind → Nat
  | .encode => 0 | .proxy => 1 | .mezz => 2 | .assemble => 3 | .packet => 4

/-- The consumer of a task. -/
def TaskKind.consumer : TaskKind → Consumer
  | .encode => .bays | .proxy => .bays | .mezz => .mze | .assemble => .assembly | .packet => .egs

/-- Whether every stripe that stripe `k` reaches in the references is final (R257, R320). -/
def State.refsReady (s : State) (o grid k : Nat) (ctu32 : Bool) : Bool :=
  match s.picOf o grid with
  | none => true
  | some p =>
    let before := earlierPics (s.out o).pics p
    (s.references o p.index).all (fun b =>
      match before.find? (fun q => q.index + b.1 = p.index) with
      | none => true
      | some q => (match s.tagOf o q.grid with
        | none => true
        | some (_, t) => subset (reach (s.outLines o) k b.2 ctu32) t.enc))

/-- Whether all predecessors of a task are present (R320, R330). -/
def State.taskReady (s : State) (t : Task) : Bool :=
  match s.tagOf t.out t.ann.grid with
  | none => t.kind = .packet
  | some (_, g) =>
    match t.kind with
    | .encode => decide (t.stripe ∈ g.pass) && s.refsReady t.out t.ann.grid t.stripe t.ann.ctu32
    | .proxy => decide (t.stripe ∈ g.pass) && s.refsReady t.out t.ann.grid t.stripe t.ann.ctu32
    | .mezz => !(s.pafSet (outSlot t.out) t.ann.grid).mezz.on || decide (t.stripe ∈ g.pass)
    | .assemble => decide (t.stripe ∈ g.enc) && (t.stripe = 0 || decide (t.stripe - 1 ∈ g.asm))
    | .packet => true

/-- The limit of a task, as a TIME_CLK cycle (R321, R338): only that of an ENCODE or PROXY task follows the clock in force (R327). -/
def State.limitOf (s : State) (t : Task) : Nat :=
  match t.kind with
  | .encode => t.dead - s.t7Cycles t.out t.ann.ctu32
  | .proxy => t.dead - s.t7Cycles t.out t.ann.ctu32
  | .mezz => t.launch - t.lead
  | .assemble => t.launch
  | .packet => t.launch

/-- The level of a task at a slack in TIME_CLK cycles (R321). -/
def levelOf (redisp : Bool) (slack : Nat) : Nat :=
  if redisp then 0
  else
    let us := slack / Config.cyclesPerUs
    if us = 0 then 1 else min 15 (Nat.log2 us + 1)

/-- The order of tasks that become READY together (R322, third key). -/
def readyKey (s : State) (t : Task) : List Nat :=
  [outSlot t.out, s.outSub t.out, t.kind.num, t.stripe, t.ann.grid, t.out]

/-- Insertion by key. -/
def insertKey {α : Type} (e : List Nat × α) : List (List Nat × α) → List (List Nat × α)
  | [] => [e]
  | x :: l => if keyBefore e.1 x.1 then e :: x :: l else x :: insertKey e l

/-- A keyed list in order. -/
def sortKeys {α : Type} (l : List (List Nat × α)) : List (List Nat × α) := l.foldr insertKey []

/-- A new task enters the tail of a level: behind the tasks of earlier cycles and the moved ones of this cycle, in the order of R322. -/
def enterLevel (i level : Nat) (s : State) : State :=
  match s.task i with
  | none => s
  | some t =>
    let t' := { t with st := .ready level s.cyc s.order, place := [s.cyc, 1] ++ readyKey s t ++ [s.order] }
    { (s.setTask i t') with order := s.order + 1 }

/-- Every WAITING task whose predecessors are present becomes READY (R317, R320 to R323). -/
def settle (s : State) : State :=
  let fresh := s.tasks.filter (fun e => e.2.st = .waiting && s.taskReady e.2)
  let keyed := sortKeys (fresh.map (fun e => (readyKey s e.2, e)))
  keyed.foldl (fun u k => enterLevel k.2.1 (levelOf k.2.2.redisp (s.limitOf k.2.2 - s.cyc)) u) s

/-- A slot is freed (R316). -/
def freeTask (i : Nat) (s : State) : State :=
  let t := { s with tasks := s.tasks.filter (fun e => e.1 ≠ i) }
  t.setFld DSP.SLOTS_IN_USE t.tasks.length

/-- The lowest free index of a numbered family of `n`. -/
def lowestFree {α : Type} (m : Store α) (n : Nat) : Nat :=
  ((List.range n).find? (fun i => !m.any (fun e => e.1 = i))).getD 0

/-! ### PAF passes (R235 to R238) -/

/-- A free pipe, lowest first. -/
def State.freePipe (s : State) : Option Nat :=
  (List.range 8).find? (fun p => !s.passes.any (fun x => x.start.isSome && x.pipe = p))

/-- The order in which passes take pipes: as their stripes were announced, those of one cycle by slot, then substream (R235). -/
def Pass.key (x : Pass) : List Nat := [x.ann.madeAt, x.ann.slot, x.ann.sub, x.ann.grid, x.ann.stripe]

/-- The waiting pass that takes the next pipe. -/
def State.nextPass (s : State) : Option Pass :=
  (leastKey ((s.passes.filter (fun x => x.start.isNone)).map (fun x => (x.key, x)))).map Prod.snd

/-- Waiting passes take free pipes in order, lowest pipe first. -/
def fillPipes : Nat → State → State
  | 0, s => s
  | n + 1, s =>
    match s.freePipe, s.nextPass with
    | some p, some x =>
      fillPipes n { s with passes := s.passes.map (fun y => if y = x then { y with start := some s.cyc, pipe := p } else y) }
    | _, _ => s

/-- The pipes are given out (R235). Passes of stripes announced in this cycle that took a pipe in it are placed again, so that the order of that
cycle's announcements does not tell. -/
def startPasses (s : State) : State :=
  fillPipes 8 { s with passes := s.passes.map (fun x =>
    if x.start = some s.cyc ∧ x.ann.madeAt = s.cyc then { x with start := none, pipe := 0 } else x) }

/-- An instant of a stripe's grid as the steps since its announcement left it (R290). -/
def Ann.at (a : Ann) (t : Nat) : Nat := ((t : Int) + a.shift).toNat

/-- The PAF limit of a stripe as a cycle: the close of its window plus half a stripe period less 1 µs (R236). -/
def State.pafLimit (s : State) (a : Ann) : Nat :=
  s.cycleOf (a.at <| instantAt (s.rate a.slot) (s.lines a.slot) a.grid ((2 * a.stripe + 3) * ctuHeight a.ctu32) - ns 1000)

/-- The source stripes that proxy stripe `k` draws on: from the one above it to its last (R282). -/
def proxySources (lines ratio k : Nat) (ctu32 : Bool) : Nat × Nat :=
  let h := ctuHeight ctu32
  (k * ratio - (if ratio = 1 then 0 else 1), (min lines ((k + 1) * h * ratio) - 1) / h)

/-- A pass over a source stripe has ended, was concealed, or is not needed (R319): PASS bits of the tags of its picture. -/
def passEnded (a : Ann) (s : State) : State :=
  let t := s.onTag (contribution a.slot a.sub) a.grid (fun g => { g with pass := addBit g.pass a.stripe })
  let t := t.onTag (mezzanine a.slot a.sub) a.grid (fun g => { g with pass := addBit g.pass a.stripe })
  if s.fld (PAF.PROXY_SUBSTREAM a.slot) ≠ a.sub then t
  else
    let lines := s.lines a.slot
    let ratio := proxyRatio (s.size a.slot)
    t.onTag (proxyOut a.slot) a.grid (fun g =>
      let src := addBit g.src a.stripe
      let done := (List.range g.stripes).filter (fun k =>
        let e := proxySources lines ratio k a.ctu32
        (List.range (e.2 + 1 - e.1)).all (fun i => decide (e.1 + i ∈ src)))
      { g with src := src, pass := done })

/-- The outputs that code the picture of an announcement. -/
def State.codersOf (s : State) (a : Ann) : List Nat :=
  ([contribution a.slot a.sub, mezzanine a.slot a.sub, proxyOut a.slot]).filter (fun o =>
    (s.tagOf o a.grid).isSome && (!isProxy o || s.outSub o = a.sub))

/-- The lines of a slot's mezzanine copy that the pass of source stripe `k` writes (R245, R330). -/
def State.copyLines (s : State) (slot k : Nat) (ctu32 : Bool) : List Nat :=
  (List.range (s.mzHeight slot)).filter (fun y => s.lineAvailable slot k y ctu32 && (k = 0 || !s.lineAvailable slot (k - 1) y ctu32))

/-- A concealed pass replaced the stripe's part of the mezzanine copy, where the picture has one (R237, R330): its lines are noted for the regions.
The other outputs that read the pass carry CONCEALED. -/
def markPass (a : Ann) (s : State) : State :=
  (s.codersOf a).foldl (fun t o =>
    if isMezz o then
      (if (s.pafSet a.slot a.grid).mezz.on then
        t.onTag o a.grid (fun g => { g with lost := s.copyLines a.slot a.stripe a.ctu32 ++ g.lost }) else t)
    else t.flagPic o a.grid 1) s

/-- The outputs fed from a copy that a pass converted with nodes that could not be read carry CONCEALED (R358, R376). -/
def markNodes (a : Ann) (s : State) : State :=
  let e := s.pafSet a.slot a.grid
  let t := if e.mezz.on ∧ e.mezz.lut ∧ e.mezz.bad ≠ [] then s.onTag (mezzanine a.slot a.sub) a.grid (fun g => { g with spoilt := true }) else s
  if e.proxy.on ∧ e.proxy.lut ∧ e.proxy.sub = a.sub ∧ e.proxy.bad ≠ [] then t.flagPic (proxyOut a.slot) a.grid flagConcealed else t

/-- CONCEALED on every output that codes the stripe's picture; the lines are noted for the regions (R330, R376). -/
def markConcealed (a : Ann) (lines : List Nat) (s : State) : State :=
  (s.codersOf a).foldl (fun t o =>
    let t := if isMezz o then t else t.flagPic o a.grid 1
    t.onTag o a.grid (fun g => { g with conc := lines ++ g.conc })) s

/-- PAF_PASS_DONE (R234 to R237): the pass's yields, or a re-run on the first free pipe when it can still end by the limit, or a
concealed pass. -/
def execPafPassDone (slot : Fin 8) (sub : Fin 16) (stripe : Nat) (faulted : Bool) (s : State) : Out :=
  finish s <|
    match takeFirst (fun (x : Pass) => x.start.isSome && x.ann.slot = slot.val && x.ann.sub = sub.val && x.ann.stripe = stripe)
        s.passes with
    | none => s
    | some (x, rest) =>
      if s.inService = false ∨ s.stopped 25 then s
      else
        let a := x.ann
        let t := { s with passes := rest }
        let bad := faulted || x.bad
        if bad ∧ s.cyc + engToTime s (passCycles s a) ≤ x.limit then
          let t := t.satFld (PAF.STAT_RERUNS a.slot)
          { t with passes := rest ++ [{ x with start := some s.cyc, pipe := (t.freePipe).getD x.pipe, bad := false, absent := false }] }
        else
          let t := if bad then markPass a (passConceal a t)
            else markNodes a (passYields a x.absent t)
          let margin := if s.cyc ≤ x.limit then (x.limit - s.cyc) / 40 else 0
          let t := t.setFld (PAF.STAT_MARGIN_MIN a.slot) (min (t.fld (PAF.STAT_MARGIN_MIN a.slot)) margin)
          let t := t.count 4 1 x.pipe
          settle (startPasses (passEnded a t))

/-! ### Creation (R318, R326) -/

/-- The outputs whose work an announcement creates: at stripe 0 the running outputs of the substream, later those that code the
picture; the proxy with its substream (R305, R318). -/
def State.creators (s : State) (a : Ann) : List Nat :=
  let all := [contribution a.slot a.sub, mezzanine a.slot a.sub, proxyOut a.slot]
  all.filter (fun o =>
    (!isProxy o || s.fld (PAF.PROXY_SUBSTREAM a.slot) = a.sub) &&
      (if a.stripe = 0 then s.outRuns o else (s.tagOf o a.grid).isSome))

/-- The stripes of an output that an announced source stripe creates: a proxy stripe comes with the last source stripe it draws
on (R282, R318). -/
def State.stripesFor (s : State) (a : Ann) (o : Nat) : List Nat :=
  if isProxy o then
    let lines := s.lines a.slot
    let ratio := proxyRatio (s.size a.slot)
    (List.range (s.outStripes o a.ctu32)).filter (fun k => (proxySources lines ratio k a.ctu32).2 = a.stripe)
  else [a.stripe]

/-- Whether every slot and tag that the creation needs is free (R318). -/
def State.canCreate (s : State) (a : Ann) : Bool :=
  let cs := s.creators a
  let slots := (cs.map (fun o => (s.stripesFor a o).length)).foldl (· + ·) 0
  let tags := if a.stripe = 0 then cs.length else 0
  decide (s.tasks.length + slots ≤ 4096 ∧ s.tags.length + tags ≤ 2048)

/-- The region map of a mezzanine output's picture at a grid point (R343): the one that the first swap after its boundary replaced, else the one
in force. -/
def State.mapAt (s : State) (o grid : Nat) : List Nat :=
  match (s.out o).mapsBefore.reverse.find? (fun e => decide (grid < e.1)) with
  | some e => e.2
  | none => Store.at s.maps [] (2 * (o - 136))

/-- The picture that an output begins with an announcement of stripe 0 (R268, R275, R299, R378). -/
def beginCoded (a : Ann) (o : Nat) (s : State) : State :=
  let r0 := s.out o
  let r := if r0.fresh then { r0 with fresh := false, index := 0, alive := 0, seq := 0, fill := 0, last := none, peak := 0 } else r0
  let opens := r0.fresh || (!isMezz o && (match r.pics.head? with
    | some p => p.ctu32 != a.ctu32
    | none => true))
  let index := if opens then 0 else r.index
  let gdrStart := decide (index % max 1 (s.gdrOf o * (if s.layered o then 2 else 1)) = 0)
  let sei := if gdrStart then (r.seiNext.getD r.sei) else r.sei
  let p : CodedPic := {
    grid := a.grid, number := a.picture, ctu32 := a.ctu32, index := index, alive := r.alive, isRepeat := a.repeat_
    first := r0.fresh
    flags := b2n a.repeat_ + (if index = 0 ∧ !isMezz o then 4 else 0) + (if a.disc then 16 else 0)
    map := if isMezz o then s.mapAt o a.grid else []
    bands := if isMezz o then [] else r.bandsNext
    sei := if gdrStart then sei else []
    share := r.share }
  let t := s.setOut o { r with
    pics := (p :: r.pics).take 12, index := index + 1, alive := (r.alive + 1) % 65536, sei := sei
    seiNext := if gdrStart then none else r.seiNext, bandsNext := [] }
  let stripes := if isMezz o then stripesOf (s.lines a.slot) a.ctu32 else s.outStripes o a.ctu32
  let g : Tag := { out := o, grid := a.grid, stripes := stripes }
  let t := if r0.fresh ∧ isMezz o then
      { t with regions := t.regions.filter (fun e => e.1 / 1024 ≠ o), slices := t.slices.filter (fun e => e.1 / 1048576 ≠ o) }
    else t
  let t := { t with tags := t.tags.insert (lowestFree t.tags 2048) g }
  let t := t.setFld DSP.TAGS_IN_USE t.tags.length
  t.maxFld DSP.TAGS_PEAK t.tags.length

/-- One slot for stripe `k` of output `o` (R289, R290, R316). -/
def createTask (a : Ann) (o k : Nat) (s : State) : State :=
  let launch := a.at (s.launchOf o a.grid k a.ctu32)
  let kind : TaskKind := if isMezz o then .mezz else if isProxy o then .proxy else .encode
  let pixels := if a.repeat_ ∨ a.stalled then 0 else s.mzPixels (outSlot o) (s.outSub o) k a.ctu32
  let task : Task := { kind := kind, st := .waiting, out := o, stripe := k, ann := a
                       lead := if isMezz o then engToTime s (mzBound pixels) + usCyc 2 else 0
                       dead := s.cycleOf (a.at (s.deadlineOf o a.grid k a.ctu32)), launch := s.cycleOf launch, launchAt := launch }
  let t := { s with tasks := s.tasks.insert (lowestFree s.tasks 4096) task }
  let t := t.onOut o (fun r => { r with rates := r.rates ++ [{ grid := a.grid, stripe := k, launch := launch }] })
  let t := (t.wrapFld DSP.CREATED_COUNT).setFld DSP.SLOTS_IN_USE t.tasks.length
  t.maxFld DSP.SLOTS_PEAK t.tasks.length

/-- The statistics block notes an announcement: the output that STAT_SEL names for the picture, from its stripe 0 (R456). -/
def noteSelection (a : Ann) (s : State) : State :=
  if a.stripe = 0 ∧ a.sub = 0 then
    let o := if s.fld (STC.STAT_SEL_PROXY a.slot) = 1 then proxyOut a.slot
      else contribution a.slot (s.fld (STC.STAT_SEL_SUBSTREAM a.slot))
    s.onStats a.slot a.grid (fun x => { x with sel := o, selRan := s.outRuns o })
  else s

/-- The creation step of an announcement that finds every slot and tag it needs (R318), with PAF's pass, or a repeat's records and
PASS bits (R238). -/
def create (a : Ann) (s : State) : State :=
  let cs := s.creators a
  let t := noteSelection a s
  let t := if a.stripe = 0 then cs.foldl (fun u o => beginCoded a o u) t else t
  let t := cs.foldl (fun u o => (s.stripesFor a o).foldl (fun v k => createTask a o k v) u) t
  let t := if a.concealed ∨ a.stalled then
      markConcealed a a.conc t
    else t
  let t := if a.repeat_ then passEnded a (repeatRecords a t)
    else startPasses { t with passes := t.passes ++ [{ ann := a, start := none, limit := s.pafLimit a }] }
  settle (freeTags t)

/-- STRIPE_ANNOUNCE (R223, R318, R326): ING hands over the next ready stripe of a substream; the creation step succeeds, or the
announcement is held behind the earlier ones. -/
def execStripeAnnounce (slot : Fin 8) (sub : Fin 16) (s : State) : Out :=
  finish s <|
    let a := slot.val
    let b := sub.val
    match s.toAnnounce a b with
    | none => s
    | some p =>
      if s.inService = false ∨ s.stopped 27 ∨ s.stripeReady a p = false then s
      else
        let n := annOf s a b p
        let t := announced a b p s
        if t.held = [] ∧ t.canCreate n then create n t
        else
          let t := { t with held := t.held ++ [n] }
          if s.held = [] then t.raise Pg.dsp 0 else t

/-- ANNOUNCEMENT_RELEASE (R224, R326): a slot or tag was freed and the first held announcement's creation step is tried again; held
for more than a stripe period, it carries STALLED and CONCEALED. The next held announcement begins a hold of its own. -/
def execAnnouncementRelease (s : State) : Out :=
  finish s <|
    match s.held with
    | [] => s
    | a :: rest =>
      if s.inService = false ∨ s.stopped 27 ∨ s.canCreate a = false then s
      else
        let late := decide (a.madeAt + s.periodCycles (contribution a.slot a.sub) a.ctu32 < s.cyc)
        let t := { s with held := rest }
        let n := if late then { a with stalled := true, concealed := true } else a
        let t := if late then
            (((t.satFld DSP.STALL_CONVERTED).raise (Pg.chin a.slot) 3).onStats a.slot a.grid
              (fun x => { x with stalled := x.stalled + 1 }))
          else t
        let t := create n t
        match rest with
        | [] => t
        | b :: _ => if t.canCreate b then t else t.raise Pg.dsp 0

/-! ### Dispatch (R321 to R323) -/

/-- The engine that runs a task. -/
def Task.engine (t : Task) : Option Nat :=
  match t.st with
  | .running e _ => some e
  | _ => none

/-- The task that an engine of a consumer class runs, with its slot. -/
def State.runningOn (s : State) (c : Consumer) (e : Nat) : Option (Nat × Task) :=
  s.tasks.find? (fun x => x.2.kind.consumer = c && x.2.engine = some e)

/-- Whether a bay's FROZEN bit holds: bays are Concourse masters 0 to 15 (R127). -/
def State.bayFrozen (s : State) (n : Nat) : Bool := s.frozen n

/-- The engines that may take a task now, lowest first (R323). -/
def State.eligible (s : State) : Consumer → List Nat
  | .bays => (List.range 16).filter (fun n =>
      bitAt (s.fld ARCC.BAYS_AVAILABLE) n && !s.inReset n && (s.runningOn .bays n).isNone)
  | .mze => (List.range 8).filter (fun n => s.fld (MZE.STAT_STATE n) ≤ 1 && !s.inReset (16 + n) && (s.runningOn .mze n).isNone)
  | .assembly => (List.range 16).filter (fun n => !s.stopped n && (s.runningOn .assembly n).isNone)
  | .egs => [0]

/-- Whether a READY task may be given: an ENCODE or PROXY task only before its start limit (R291). -/
def State.givable (s : State) (t : Task) : Bool :=
  match t.kind with
  | .encode => s.cyc < s.limitOf t
  | .proxy => s.cyc < s.limitOf t
  | _ => true

/-- The first task of a consumer: lowest level, head of the level (R321, R322). -/
def State.firstTask (s : State) (c : Consumer) : Option (Nat × Task) :=
  let ready := s.tasks.filterMap (fun e =>
    match e.2.st with
    | .ready level _ _ =>
      if e.2.kind.consumer = c ∧ s.givable e.2 then some (level :: e.2.place, e) else none
    | _ => none)
  (leastKey ready).map Prod.snd

/-- A bay takes a task: START with its start work, and its task in BAYn.STAT and TASK_PIC (R251). -/
def bayTakes (n i : Nat) (t : Task) (s : State) : State :=
  let u := { s with bays := (s.bays.erase n).insert n (s.startWork t { task := i, start := s.cyc }) }
  let u := u.setReg (Pg.bay n + 0x40) 0
  let u := (u.setFld (BAY.STAT_STATE n) 1).setFld (BAY.STAT_PROXY n) (b2n (isProxy t.out))
  let u := (u.setFld (BAY.STAT_SLOT n) (outSlot t.out)).setFld (BAY.STAT_SUBSTREAM n) (s.outSub t.out)
  (u.setFld (BAY.STAT_STRIPE n) t.stripe).setFld (BAY.TASK_PIC_PICTURE n) t.ann.picture

/-- An MZE engine takes a task: CODING. -/
def mzeTakes (n : Nat) (t : Task) (s : State) : State :=
  let u := (s.setReg (Pg.mze n + 0x40) 0).setFld (MZE.STAT_STATE n) 1
  let u := (u.setFld (MZE.STAT_SLOT n) (outSlot t.out)).setFld (MZE.STAT_SUBSTREAM n) (s.outSub t.out)
  (u.setFld (MZE.STAT_STRIPE n) t.stripe).setFld (MZE.TASK_PIC_PICTURE n) t.ann.picture

/-- An entropy-assembly unit takes a task. -/
def eauTakes (n : Nat) (t : Task) (s : State) : State :=
  let u := (s.setFld (EAU.STAT_ASM_BUSY n) 1).setFld (EAU.STAT_PROXY n) (b2n (isProxy t.out))
  let u := (u.setFld (EAU.STAT_SLOT n) (outSlot t.out)).setFld (EAU.STAT_SUBSTREAM n) (s.outSub t.out)
  u.setFld (EAU.STAT_STRIPE n) t.stripe

/-- A task is given to an engine: RUNNING from this cycle (R317, R323). -/
def give (e i : Nat) (t : Task) (s : State) : State :=
  let u := s.setTask i { t with st := .running e s.cyc }
  let u := u.wrapFld DSP.DISPATCHED_COUNT
  let u := match t.st with
    | .ready level since _ => u.maxFld (DSP.READY_WAIT_MAX level) ((s.cyc - since) / Config.cyclesPerUs)
    | _ => u
  let u := u.count 7 1 t.kind.num
  match t.kind.consumer with
  | .bays => bayTakes e i t u
  | .mze => mzeTakes e t u
  | .assembly => eauTakes e t u
  | .egs => u

/-- DISPATCH_TASK (R323): the lowest-numbered free eligible engine of the class takes the class's first task. -/
def execDispatchTask (consumer : Consumer) (s : State) : Out :=
  finish s <|
    if s.inService ∧ s.stopped 27 = false then
      match (s.eligible consumer).head?, s.firstTask consumer with
      | some e, some (i, t) => give e i t s
      | _, _ => s
    else s

/-- Whether the counter has reached a microsecond in this cycle (R322). -/
def State.atMicrosecond (s : State) : Bool := decide (s.ctr % ns 1000 < s.fld PTP.INCR_INCR)

/-- RELEVEL_TICK (R322): at a microsecond of the counter each READY task of level 1 or above whose slack maps to a lower level moves to that
level's tail, ahead of the tasks that become READY in the cycle, in order of its previous level and its place there. -/
def execRelevelTick (s : State) : Out :=
  finish s <|
    let moved := s.tasks.filterMap (fun e =>
      match e.2.st with
      | .ready level since _ =>
        let new := levelOf false (s.limitOf e.2 - s.cyc)
        if 1 ≤ level ∧ new < level then some (level :: e.2.place, (e.1, new, since)) else none
      | _ => none)
    if s.inService ∧ s.stopped 27 = false ∧ s.atMicrosecond then
      (sortKeys moved).foldl (fun u k =>
        match u.task k.2.1 with
        | none => u
        | some t =>
          { (u.setTask k.2.1 { t with st := .ready k.2.2.1 k.2.2.2 u.order, place := [s.cyc, 0, u.order] }) with order := u.order + 1 }) s
    else s

end Sys2Proof.Machine
end

