-- ==== Sys2Proof/Machine/Nal.lean ====
section
/-!
DEFINITION. Machine/Nal.lean: the NAL units of a coded picture: their order, the syntax elements that the spec fixes, and their bytes (spec 10
R258, R261 to R268, R271, R272, R275, R281, R285, 11 R297, R301, 15 R367). An element that is not listed is 0 (R262).
-/
namespace Sys2Proof.Machine

/-- The NAL units of R264, and the end of a sequence (R275). -/
inductive NalKind
  | endOfSequence | delimiter | vps | sps | pps | alfAps | bufferingPeriod | recoveryPoint | pictureTiming | pictureHeader
  | decodingUnit | slice
deriving DecidableEq, Repr

/-- Syntax elements by name. -/
abbrev Elements := List (String × Int)

/-- A NAL unit: its TemporalId, its syntax elements by name, and the bytes that follow them: the host's SEI payload, or a slice's data. -/
structure Nal where
  kind     : NalKind
  temporal : Nat := 0
  fields   : Elements := []
  body     : List Byte := []
deriving DecidableEq, Repr

/-! ### Numbers and bytes (R367) -/

/-- Whether a NAL unit is a prefix SEI. -/
def NalKind.isSei : NalKind → Bool
  | .bufferingPeriod => true | .recoveryPoint => true | .pictureTiming => true | .decodingUnit => true
  | _ => false

/-- nal_unit_type (H.266, H.265): `gdr` for the picture that opens a refresh period, `upper` for one of TemporalId 1. -/
def NalKind.type (hevc gdr upper : Bool) (k : NalKind) : Nat :=
  match k with
  | .endOfSequence => if hevc then 36 else 21
  | .delimiter => if hevc then 35 else 20
  | .vps => if hevc then 32 else 14
  | .sps => if hevc then 33 else 15
  | .pps => if hevc then 34 else 16
  | .alfAps => 17
  | .pictureHeader => 19
  | .slice => if hevc then (if upper then 0 else 1) else if gdr then 10 else 0
  | _ => if hevc then 39 else 23

/-- The two bytes of a NAL unit header: layer 0, TemporalId plus 1. -/
def nalHeader (hevc : Bool) (type temporal : Nat) : List Byte :=
  if hevc then beBytes 2 (type * 512 + temporal + 1) else beBytes 2 (type * 8 + temporal + 1)

/-- Emulation prevention: a byte 3 wherever two zero bytes would be followed by a byte below 4, or end the unit (R367). `z` counts the zeros
just passed. -/
def escaped : Nat → List Byte → List Byte
  | z, [] => if z = 0 then [] else [3]
  | z, b :: l =>
    if 2 ≤ z ∧ b.toNat ≤ 3 then 3 :: b :: escaped (if b = 0 then 1 else 0) l
    else b :: escaped (if b = 0 then z + 1 else 0) l

/-- The most bytes that the elements of a slice header take: R315 keeps a floor synthesis with its 720 bytes of DC CTUs (R296) under 1 KiB, and
emulation prevention adds at most a half (DEDUCED, log entry 92). -/
def headerMost : Nat := 200

/-- The bytes of a NAL unit. An SEI ends with its trailing bits. -/
def nalBytes (hevc gdr : Bool) (n : Nal) : List Byte :=
  let type := n.kind.type hevc gdr (n.temporal != 0)
  let elements := Config.syntaxBytes hevc type n.fields
  nalHeader hevc type n.temporal
    ++ escaped 0 ((if n.kind = .slice then elements.take headerMost else elements) ++ n.body ++ (if n.kind.isSei then [0x80] else []))

/-- The bytes of NAL units as R367 streams them: each behind 0, 0, 0, 1. -/
def streamBytes (hevc gdr : Bool) (l : List Nal) : List Byte := (l.map (fun n => beBytes 4 1 ++ nalBytes hevc gdr n)).flatten

/-! ### Places in a refresh period (R271, R281) -/

/-- Pictures of an output between two that may carry bands: 2 in two temporal layers (R281). -/
def State.gdrStep (s : State) (o : Nat) : Nat := if s.layered o then 2 else 1

/-- Whether the picture at `index` is the first of a refresh period. -/
def State.opensPeriod (s : State) (o index : Nat) : Bool := index % (max 1 (s.gdrOf o) * s.gdrStep o) = 0

/-- The band pictures of a period: B of R271. -/
def State.bandPictures (s : State) (o cols : Nat) : Nat := ceilDiv cols (ceilDiv cols (max 1 (s.gdrOf o)))

/-- recovery_poc_cnt: B - 1 pictures, or 2 (B - 1) in two layers (R272, R281). -/
def State.recoveryCount (s : State) (o cols : Nat) : Nat := (s.bandPictures o cols - 1) * s.gdrStep o

/-- A flag as a syntax element. -/
def flagBit (b : Bool) : Int := if b then 1 else 0

/-! ### Parameter sets (R258, R261, R262, R266, R267, R301) -/

/-- Profile, tier and level of an output (R258, R280, R281), with the constraint flags of HEVC Main 4:2:2 10. -/
def State.profile (s : State) (o : Nat) : Elements :=
  if isProxy o then
    [("general_profile_idc", 2), ("general_tier_flag", 1)]
      ++ (if s.layered o then [("general_level_idc", 150), ("sub_layer_level_present_flag", 1), ("sub_layer_level_idc", 123)]
          else [("general_level_idc", 123)])
  else if s.hevc o then
    [("general_profile_idc", 4), ("general_tier_flag", 1), ("general_level_idc", 186), ("general_max_12bit_constraint_flag", 1),
     ("general_max_10bit_constraint_flag", 1), ("general_max_422chroma_constraint_flag", 1), ("general_lower_bit_rate_constraint_flag", 1)]
  else [("general_profile_idc", if s.chroma o = 0 then 1 else 33), ("general_tier_flag", 1), ("general_level_idc", 102)]

/-- The decoded picture buffer (R262). -/
def dpbFields : Elements :=
  [("max_dec_pic_buffering_minus1", 3), ("max_num_reorder_pics", 0), ("max_latency_increase_plus1", 0)]

/-- Temporal layers less 1 (R262, R281). -/
def State.layerField (s : State) (o : Nat) : Elements := [("max_sublayers_minus1", flagBit (s.layered o))]

/-- colour_primaries, transfer_characteristics, matrix_coefficients of COLOR and TCS (R267). -/
def colourCodes (color tcs : Nat) : Int × Int × Int :=
  if color = 0 then (1, 1, 1) else if color = 1 ∨ tcs = 0 then (9, 14, 9) else if tcs = 1 then (9, 16, 9) else (9, 18, 9)

/-- num_units_in_tick and time_scale of a picture rate (R267). -/
def frameTiming (rate : Nat) : Nat × Nat := (if (refPeriod rate).1 % 1001 = 0 then 1001 else 1000, (refPeriod rate).2 * 1000)

/-- The VUI (R259, R267): colorimetry and range of the source, of a proxy those of its proxy source, and fixed picture timing. -/
def State.vui (s : State) (o grid : Nat) : Elements :=
  let slot := outSlot o
  let e := (s.pafSet slot grid).proxy
  let color := if isProxy o then e.color else s.fld (CHIN.FMT_COLOR slot)
  let tcs := if isProxy o then e.tcs else s.fld (CHIN.FMT_TCS slot)
  let full := if isProxy o then e.full else s.fld (CHIN.FMT_RANGE slot) = 1
  let c := colourCodes color tcs
  let (unit, scale) := frameTiming (s.rate slot)
  [("colour_primaries", c.1), ("transfer_characteristics", c.2.1), ("matrix_coefficients", c.2.2), ("video_full_range_flag", flagBit full),
   ("chroma_sample_loc_type", 0), ("num_units_in_tick", unit), ("time_scale", scale), ("fixed_pic_rate_general_flag", 1),
   ("fixed_pic_rate_within_cvs_flag", 1)]

/-- Whether an output is a member of a pooled group (R306). -/
def State.pooled (s : State) (o : Nat) : Bool := o < 128 && s.fld (STC.OUT_POOLED (o / 16) (o % 16)) = 1

/-- The hypothetical reference decoder at decoding-unit level (R266, R301): the drain rate, the bucket size in bits rounded down, and
cbr_flag 0 in a pooled group. -/
def State.hrd (s : State) (o : Nat) (ctu32 : Bool) : Elements :=
  (if s.hevc o then [("sub_pic_hrd_params_present_flag", 1), ("sub_pic_cpb_params_in_pic_timing_sei_flag", 0)]
   else [("general_du_hrd_params_present_flag", 1), ("decoding_unit_cpb_params_in_pic_timing_sei_flag", 0)])
    ++ ([("bit_rate", (s.drain o : Int)), ("cpb_size", (s.bucketSize o ctu32).floor), ("cbr_flag", flagBit (!s.pooled o))] : Elements)

/-- Binary and ternary splits of intra or inter slices in VVC (R262): both are allowed, to a depth and size that the spec does not state. -/
def splitFields (big : Bool) (slices : String) (i : Nat) : Elements :=
  let room := if big then 4 else 3
  [("sps_max_mtt_hierarchy_depth_" ++ slices ++ "_slice_luma", (1 + Config.splitLimit i % (2 * room) : Nat)),
   ("sps_log2_diff_max_bt_min_qt_" ++ slices ++ "_slice_luma", (1 + Config.splitLimit (i + 1) % room : Nat)),
   ("sps_log2_diff_max_tt_min_qt_" ++ slices ++ "_slice_luma", (2 + Config.splitLimit (i + 2) % (room - 1) : Nat))]

/-- The sequence parameter set (R262, R272). -/
def State.spsFields (s : State) (o : Nat) (p : CodedPic) : Elements :=
  let big := !p.ctu32
  let common := s.profile o ++ s.layerField o
    ++ ([("chroma_format_idc", (s.chroma o : Int) + 1), ("pic_width_in_luma_samples", s.outWidth o),
         ("pic_height_in_luma_samples", s.outLines o), ("bit_depth_minus8", 2), ("log2_max_pic_order_cnt_lsb_minus4", 4)] : Elements)
    ++ dpbFields
  let tools : Elements :=
    if s.hevc o then
      [("log2_min_luma_coding_block_size_minus3", 0), ("log2_diff_max_min_luma_coding_block_size", if big then 3 else 2),
       ("log2_max_luma_transform_block_size", 5), ("amp_enabled_flag", 1), ("sample_adaptive_offset_enabled_flag", 1),
       ("sps_temporal_mvp_enabled_flag", 1), ("strong_intra_smoothing_enabled_flag", 1)]
    else
      [("sps_log2_ctu_size_minus5", flagBit big), ("sps_log2_min_luma_coding_block_size_minus2", 0),
       ("sps_max_luma_transform_size_64_flag", flagBit big), ("sps_dep_quant_enabled_flag", 1), ("sps_mts_enabled_flag", 1),
       ("sps_explicit_mts_intra_enabled_flag", 1), ("sps_explicit_mts_inter_enabled_flag", 1), ("sps_lfnst_enabled_flag", 1),
       ("sps_sbt_enabled_flag", 1), ("sps_mip_enabled_flag", 1), ("sps_mrl_enabled_flag", 1), ("sps_isp_enabled_flag", 1),
       ("sps_cclm_enabled_flag", 1), ("sps_joint_cbcr_enabled_flag", 1), ("sps_temporal_mvp_enabled_flag", 1),
       ("sps_sbtmvp_enabled_flag", 1), ("sps_amvr_enabled_flag", 1), ("sps_affine_enabled_flag", 1),
       ("sps_6param_affine_enabled_flag", 1), ("sps_affine_prof_enabled_flag", 1), ("sps_mmvd_enabled_flag", 1),
       ("sps_gpm_enabled_flag", 1), ("sps_ciip_enabled_flag", 1), ("sps_bcw_enabled_flag", 1), ("sps_sao_enabled_flag", 1),
       ("sps_alf_enabled_flag", 1), ("sps_ccalf_enabled_flag", 1), ("sps_virtual_boundaries_enabled_flag", 1),
       ("sps_gdr_enabled_flag", 1)] ++ splitFields big "intra" 0 ++ splitFields big "inter" 3
  common ++ tools ++ s.vui o p.grid ++ s.hrd o p.ctu32

/-- The picture parameter set (R261, R262). -/
def State.ppsFields (s : State) (o : Nat) : Elements :=
  if s.hevc o then
    [("cu_qp_delta_enabled_flag", 1), ("diff_cu_qp_delta_depth", 0), ("sign_data_hiding_enabled_flag", 1), ("tiles_enabled_flag", 0),
     ("pps_loop_filter_across_slices_enabled_flag", 0)]
  else
    [("pps_rect_slice_flag", 1), ("pps_num_exp_slices_in_tile", 1), ("pps_exp_slice_height_in_ctus_minus1", 0),
     ("pps_loop_filter_across_slices_enabled_flag", 0), ("pps_cu_qp_delta_enabled_flag", 1)]

/-! ### Pictures and slices (R264, R266, R268, R272, R281, R301) -/

/-- The initial CPB removal delay: W x P in units of the 90 kHz clock, rounded down (R301). -/
def State.removalDelay (s : State) (o : Nat) (ctu32 : Bool) : Int :=
  ((bucketWindow (s.outDAs o ctu32) ctu32 : Rat) * s.stripeSeconds o ctu32 * 90000).floor

/-- The step of the decoding units' removal: one stripe period, in seconds as a fraction (R266, R301). -/
def State.removalStep (s : State) (o : Nat) (ctu32 : Bool) : Elements :=
  let p := s.stripeSeconds o ctu32
  [("removal_step_numerator", p.num), ("removal_step_denominator", p.den)]

/-- The pictures that a picture refers to, as distances back that lie in its coded video sequence (R268, R281). -/
def State.deltas (s : State) (o : Nat) (p : CodedPic) : List Nat := (s.references o p.index).map Prod.fst

/-- The picture header (VVC): the GDR picture, and the virtual boundary of a picture whose clean area is not the whole (R272). -/
def State.headerFields (s : State) (o : Nat) (p : CodedPic) : Elements :=
  let cols := s.outCtus o p.ctu32
  let gdr := s.opensPeriod o p.index
  let i := p.index / s.gdrStep o % max 1 (s.gdrOf o)
  let x := (s.bandOf o p.index cols).2 * ctuHeight p.ctu32
  ([("ph_pic_order_cnt_lsb", (p.number % 256 : Nat)), ("ph_gdr_pic_flag", flagBit gdr)] : Elements)
    ++ (if gdr then [("ph_recovery_poc_cnt", (s.recoveryCount o cols : Int))] else [])
    ++ (if i + 1 < s.bandPictures o cols then
          ([("ph_virtual_boundaries_present_flag", 1), ("ph_num_ver_virtual_boundaries", 1),
            ("ph_virtual_boundary_pos_x_minus1", (x / 8 - 1 : Nat))] : Elements) else [])

/-- A slice header (R261, R268): the stripe's place, its type, its picture order count and the references of both lists. -/
def State.sliceFields (s : State) (o stripe : Nat) (p : CodedPic) : Elements :=
  let d := s.deltas o p
  let type : Int := if d = [] then 2 else if s.refsOf o = 1 then 1 else 0
  let place : Elements :=
    if s.hevc o then
      [("first_slice_segment_in_pic_flag", flagBit (decide (stripe = 0))), ("slice_segment_address", (stripe * s.outCtus o p.ctu32 : Nat)),
       ("slice_pic_order_cnt_lsb", (p.number % 256 : Nat))]
    else [("sh_slice_address", stripe)]
  place ++ [("slice_type", type)]
    ++ d.map (fun (k : Nat) => ("ref_pic_list0", -(k : Int))) ++ (if type = 0 then d.map (fun (k : Nat) => ("ref_pic_list1", -(k : Int))) else [])

/-- Items 1 to 7 of R264, ahead of a picture's first slice, behind the end of the sequence before a VVC picture that opens another
(R275). -/
def State.pictureNals (s : State) (o : Nat) (p : CodedPic) : List Nal :=
  let hevc := s.hevc o
  let cols := s.outCtus o p.ctu32
  let gdr := s.opensPeriod o p.index
  let upper := if s.layered o then p.index % 2 else 0
  let only (b : Bool) (l : List Nal) : List Nal := if b then l else []
  only (!hevc && p.index == 0 && !p.first) [{ kind := .endOfSequence }]
    ++ [{ kind := .delimiter, temporal := upper }]
    ++ only gdr (only hevc [{ kind := .vps, fields := s.profile o ++ s.layerField o ++ dpbFields }]
        ++ [{ kind := .sps, fields := s.spsFields o p }, { kind := .pps, fields := s.ppsFields o }])
    ++ only (!hevc) [{ kind := .alfAps, fields := [("output", (o : Int)), ("statistics_of_picture", ((pictureBefore p.number : Nat) : Int))] }]
    ++ only gdr [{ kind := .bufferingPeriod, fields := [("initial_cpb_removal_delay", s.removalDelay o p.ctu32)], body := p.sei }]
    ++ only (gdr && hevc) [{ kind := .recoveryPoint, fields := [("recovery_poc_cnt", (s.recoveryCount o cols : Int)), ("exact_match_flag", 1)] }]
    ++ [{ kind := .pictureTiming, temporal := upper, fields := ("picture_in_sequence", (p.index : Int)) :: s.removalStep o p.ctu32 }]
    ++ only (!hevc) [{ kind := .pictureHeader, fields := s.headerFields o p }]

/-- The NAL units of stripe `k` of a picture (R264): items 1 to 7 with stripe 0, the decoding unit's SEI, the slice. -/
def State.stripeNals (s : State) (o k : Nat) (p : CodedPic) (data : List Byte) : List Nal :=
  let upper := if s.layered o then p.index % 2 else 0
  (if k = 0 then s.pictureNals o p else [])
    ++ [{ kind := .decodingUnit, temporal := upper, fields := ("decoding_unit_idx", (k : Int)) :: s.removalStep o p.ctu32 },
        { kind := .slice, temporal := upper, fields := s.sliceFields o k p, body := data }]

/-- The byte stream of stripe `k` of a picture (R367). -/
def State.stripeStream (s : State) (o k : Nat) (p : CodedPic) (data : List Byte) : List Byte :=
  streamBytes (s.hevc o) (s.opensPeriod o p.index) (s.stripeNals o k p data)

/-- The bits of a stripe: every byte of its NAL units (R300). -/
def State.stripeBits (s : State) (o k : Nat) (p : CodedPic) (data : List Byte) : Nat :=
  8 * (((s.stripeNals o k p data).map (fun n => (nalBytes (s.hevc o) (s.opensPeriod o p.index) n).length)).foldl (· + ·) 0)

/-- The bits of a slice: its NAL unit header, its slice header and its data. -/
def State.sliceBits (s : State) (o k : Nat) (p : CodedPic) (data : List Byte) : Nat :=
  8 * (nalBytes (s.hevc o) (s.opensPeriod o p.index) { kind := .slice, fields := s.sliceFields o k p, body := data }).length

/-! ### Reconstruction (R251, R269, R313) -/

/-- The picture that a skip CTU copies (R276, R281, R313): that of reference 0. -/
def State.copied (s : State) (o : Nat) (p : CodedPic) : Option CodedPic :=
  match s.deltas o p with
  | [] => none
  | d :: _ => (earlierPics (s.out o).pics p).find? (fun q => q.index + d = p.index)

/-- The reconstructed stripes that a stripe predicts from: every stripe of each reference (R257). -/
def State.refRecon (s : State) (o : Nat) (p : CodedPic) : List (List Byte) :=
  let before := earlierPics (s.out o).pics p
  ((s.deltas o p).map (fun d => match before.find? (fun q => q.index + d = p.index) with
    | some q => q.recon.map Prod.snd
    | none => [])).flatten

/-- A stripe's reconstruction kept with its picture. -/
def keepRecon (o grid k : Nat) (b : List Byte) (s : State) : State :=
  s.onCoded o grid (fun p => { p with recon := Store.put p.recon [] k b })

/-- What a decoder makes of a coded slice. -/
def State.sliceRecon (s : State) (o k : Nat) (p : CodedPic) (data : List Byte) : List Byte :=
  Config.reconstruct (nalBytes (s.hevc o) (s.opensPeriod o p.index) { kind := .slice, fields := s.sliceFields o k p, body := data })
    (s.refRecon o p)

/-- Samples of a stripe of an output, over its three components. -/
def State.stripeSamples (s : State) (o k : Nat) (ctu32 : Bool) : Nat :=
  let n := s.outWidth o * (stripeLines (s.outLines o) k ctu32).length
  if s.chroma o = 0 then n * 3 / 2 else if s.chroma o = 1 then n * 2 else n * 3

/-- The reconstruction of a floor synthesis (R313, log entry 100): the co-located stripe of the picture that its skip CTUs copy, or 512 in every
sample where there is none. -/
def State.floorRecon (s : State) (o k : Nat) (p : CodedPic) : List Byte :=
  match s.copied o p with
  | some q => Store.at q.recon [] k
  | none => packBits 10 (List.replicate (s.stripeSamples o k p.ctu32) 512)

end Sys2Proof.Machine
end

