-- ==== Sys2Proof/Machine/Search.lean ====
section
/-!
DEFINITION. Machine/Search.lean: what a bay may choose for a CTU: the tread table, the search positions around the seeds, the clean and suspect
areas that no prediction may read, and the coding units that the spec fixes (spec 10 R256, R257, R270, R273, R276, R278, R279, 11 R313, R314).
-/
namespace Sys2Proof.Machine

/-! ### The tread table (R278) -/

/-- A column of the table of R278, T0 to T6: the smallest luma CU and the splits of VVC; the intra modes that reach the full test and the tools
beside them; the vector ranges in columns and lines, of reference 1 none where it is merge only; the finest fractional position in sixteenths of
a sample; the inter tools and transforms of VVC; the coefficient decision; SAO and ALF. -/
structure TreadRow where
  smallest   : Nat
  splits     : List Split
  intra      : Nat
  intraTools : List IntraTool
  range0     : Nat × Nat
  range1     : Option (Nat × Nat)
  finest     : Nat
  inter      : List InterTool
  transforms : List TransformKind
  trellis    : Bool
  sao        : Bool
  alf        : Bool
deriving DecidableEq, Repr

/-- The table of R278. -/
def treadRows : List TreadRow :=
  [{ smallest := 4, splits := [.quad, .binary, .ternary], intra := 6, intraTools := [.plain, .mip, .mrl, .isp], range0 := (256, 128)
     range1 := some (256, 32), finest := 4, inter := [.merge, .mmvd, .affine, .sbtmvp, .gpm, .ciip, .uni, .bi]
     transforms := [.dct2, .mts, .lfnst, .sbt], trellis := true, sao := true, alf := true },
   { smallest := 8, splits := [.quad, .binary, .ternary], intra := 5, intraTools := [.plain, .mip, .mrl], range0 := (192, 96)
     range1 := some (192, 32), finest := 4, inter := [.merge, .mmvd, .affine, .sbtmvp, .ciip, .uni, .bi]
     transforms := [.dct2, .mts, .lfnst], trellis := true, sao := true, alf := true },
   { smallest := 8, splits := [.quad, .binary], intra := 4, intraTools := [.plain, .mip], range0 := (128, 64)
     range1 := some (128, 32), finest := 4, inter := [.merge, .mmvd, .affine, .sbtmvp, .uni, .bi]
     transforms := [.dct2, .lfnst], trellis := true, sao := true, alf := true },
   { smallest := 8, splits := [.quad, .binary], intra := 3, intraTools := [.plain], range0 := (96, 48)
     range1 := some (64, 16), finest := 4, inter := [.merge, .mmvd, .sbtmvp, .uni, .bi]
     transforms := [.dct2, .lfnst], trellis := true, sao := true, alf := true },
   { smallest := 16, splits := [.quad, .binary], intra := 3, intraTools := [.plain], range0 := (64, 32)
     range1 := some (32, 16), finest := 4, inter := [.merge, .sbtmvp, .uni, .bi]
     transforms := [.dct2], trellis := true, sao := true, alf := true },
   { smallest := 16, splits := [.quad], intra := 2, intraTools := [.plain], range0 := (32, 16), range1 := none, finest := 8
     inter := [.merge, .uni], transforms := [.dct2], trellis := false, sao := true, alf := false },
   { smallest := 32, splits := [.quad], intra := 2, intraTools := [.plain], range0 := (16, 8), range1 := none, finest := 8
     inter := [.merge, .uni], transforms := [.dct2], trellis := false, sao := false, alf := false }]

/-- The row of a tread above T7. -/
def treadRow (tread : Nat) : TreadRow :=
  nth treadRows tread { smallest := 32, splits := [.quad], intra := 2, intraTools := [.plain], range0 := (0, 0), range1 := none, finest := 16
                        inter := [], transforms := [.dct2], trellis := false, sao := false, alf := false }

/-! ### What a prediction reads (R270, R273) -/

/-- The luma samples that a block reads at a vector: first and last column, first and last line, before the clip to the picture. A fractional
position reads 3 samples before and 4 after (R273). -/
def readArea (x y w h : Nat) (m : Motion) : Int × Int × Int × Int :=
  let fx := m.x % 16 ≠ 0
  let fy := m.y % 16 ≠ 0
  let x0 := (x : Int) + m.x / 16
  let y0 := (y : Int) + m.y / 16
  (x0 - (if fx then 3 else 0), x0 + w - 1 + (if fx then 4 else 0), y0 - (if fy then 3 else 0), y0 + h - 1 + (if fy then 4 else 0))

/-- The reference that entry `ref` of a picture's list names (R268, R281). -/
def State.refPicture (s : State) (o : Nat) (p : CodedPic) (ref : Nat) : Option CodedPic :=
  match (s.deltas o p)[ref]? with
  | none => none
  | some d => (earlierPics (s.out o).pics p).find? (fun q => q.index + d = p.index)

/-- The pictures that carry bands, counted from the sequence's first, up to a picture (R271, R281). -/
def State.bandIndex (s : State) (o : Nat) (p : CodedPic) : Nat := p.index / s.gdrStep o

/-- The clean boundary x_r of a reference for the picture `p` (R273): that of its place in the period of `p`, or 0 before that period. -/
def State.cleanEdge (s : State) (o : Nat) (p r : CodedPic) : Nat :=
  let g := max 1 (s.gdrOf o)
  let cols := s.outCtus o p.ctu32
  let start := s.bandIndex o p / g * g
  if s.bandIndex o r < start then 0
  else min ((s.bandIndex o r - start + 1) * ceilDiv cols g) cols * ctuHeight p.ctu32

/-- Whether column `c` lies in the clean area or the band of a picture (R271). -/
def State.inClean (s : State) (o : Nat) (p : CodedPic) (c : Nat) : Bool :=
  let g := max 1 (s.gdrOf o)
  let cols := s.outCtus o p.ctu32
  decide (c < min cols ((s.bandIndex o p % g + 1) * ceilDiv cols g))

/-- m of R273. -/
def State.cleanMargin (s : State) (o : Nat) : Nat := if s.hevc o then 8 else 0

/-- Whether columns up to `x1` of a reference may be read from a CTU of column `c` (R273). Columns past the picture's last one read that one. -/
def State.keepsClean (s : State) (o : Nat) (p r : CodedPic) (c : Nat) (x1 : Int) : Bool :=
  !s.inClean o p c || decide (min x1 ((s.outWidth o : Int) - 1) + (s.cleanMargin o : Int) < (s.cleanEdge o p r : Int))

/-- Whether an area of a reference overlaps one of its suspect CTUs (R270). -/
def State.readsSuspect (s : State) (o : Nat) (r : CodedPic) (a : Int × Int × Int × Int) : Bool :=
  let h : Int := ctuHeight r.ctu32
  let x0 := clampInt 0 ((s.outWidth o : Int) - 1) a.1
  let x1 := clampInt 0 ((s.outWidth o : Int) - 1) a.2.1
  let y0 := clampInt 0 ((s.outLines o : Int) - 1) a.2.2.1
  let y1 := clampInt 0 ((s.outLines o : Int) - 1) a.2.2.2
  r.suspects.any (fun e => decide ((e.2 : Int) * h ≤ x1 ∧ x0 < ((e.2 : Int) + 1) * h ∧ (e.1 : Int) * h ≤ y1 ∧ y0 < ((e.1 : Int) + 1) * h))

/-- Whether a block of CTU `c` of stripe `k` may read at a vector: its reference exists, and the rules of R270 and R273 hold. -/
def State.mayRead (s : State) (o : Nat) (p : CodedPic) (k c : Nat) (u : CodingUnit) (m : Motion) : Bool :=
  let h := ctuHeight p.ctu32
  let a := readArea (c * h + u.x) (k * h + u.y) u.w u.h m
  match s.refPicture o p m.ref with
  | none => false
  | some r => s.keepsClean o p r c a.2.1 && !s.readsSuspect o r a

/-! ### Vectors (R278, R279) -/

/-- Whether a vector lies within a range of columns and lines. -/
def motionWithin (m : Motion) (r : Nat × Nat) : Bool := decide (m.x.natAbs ≤ 16 * r.1 ∧ m.y.natAbs ≤ 16 * r.2)

/-- Whether a vector lies within the range of its reference at a tread (R278). A merge candidate for reference 1 where the table names no range
keeps that of T0, for which R257 makes the reference ready (DEDUCED, log entry 103). -/
def motionInRange (m : Motion) (row : TreadRow) (tool : InterTool) : Bool :=
  if m.ref = 0 then motionWithin m row.range0
  else match row.range1 with
    | some r => motionWithin m r
    | none => decide (tool = .merge) && motionWithin m (256, 32)

/-- Whether a component of a vector is a position of the search around a seed: a whole-sample refinement of at most `r`, then one of the
neighbours at each finer fractional step down to `finest` sixteenths (R279). -/
def refined (seed : Int) (r finest : Nat) (v : Int) : Bool :=
  let d := v - 16 * seed
  decide (d % (finest : Int) = 0 ∧ d.natAbs ≤ 16 * r + (if finest = 4 then 12 else 8))

/-- The seeds of a coding unit for a reference: those of the 32 x 32 block that holds its centre (R279). -/
def unitSeeds (r : BayRun) (t : Task) (tread ref c : Nat) (u : CodingUnit) : List (Int × Int) :=
  let per := ctuHeight t.ann.ctu32 / 32
  seedsOf r t tread ref ((u.y + u.h / 2) / 32) (c * per + (u.x + u.w / 2) / 32) [u.x, u.y, u.w, u.h]

/-- Whether the search of a coding unit can reach a vector (R279). -/
def searched (r : BayRun) (t : Task) (tread c : Nat) (u : CodingUnit) (m : Motion) : Bool :=
  (unitSeeds r t tread m.ref c u).any (fun e =>
    refined e.1 (seedRefine tread) (treadRow tread).finest m.x && refined e.2 (seedRefine tread) (treadRow tread).finest m.y)

/-! ### Coding units -/

/-- The bits of a transform block list. -/
def blockBits (l : List TransformBlock) : Nat := (l.map TransformBlock.bits).foldl (· + ·) 0

/-- The bits of a coding unit. -/
def unitSize (u : CodingUnit) : Nat := u.bits + blockBits u.blocks

/-- The bits of a CTU. -/
def codeBits (c : CtuCode) : Nat := c.head + (c.units.map unitSize).foldl (· + ·) 0

/-- Whether two coding units share a sample. -/
def unitsMeet (a b : CodingUnit) : Bool := decide (a.x < b.x + b.w ∧ b.x < a.x + a.w ∧ a.y < b.y + b.h ∧ b.y < a.y + a.h)

/-- Whether no two of a list of units share a sample. -/
def apart : List CodingUnit → Bool
  | [] => true
  | u :: l => l.all (fun v => !unitsMeet u v) && apart l

/-- The lines of a CTU of stripe `k` that lie in the picture. -/
def State.ctuLines (s : State) (o k : Nat) (ctu32 : Bool) : Nat := (stripeLines (s.outLines o) k ctu32).length

/-- Whether units make up a CTU of `w` columns and `h` lines: inside it, apart, and covering it. -/
def covers (w h : Nat) (l : List CodingUnit) : Bool :=
  l.all (fun u => decide (0 < u.w ∧ 0 < u.h ∧ u.x + u.w ≤ w ∧ u.y + u.h ≤ h)) && apart l
    && decide ((l.map (fun u => u.w * u.h)).foldl (· + ·) 0 = w * h)

/-- The parts of a CTU's bits in order, with whether each is residual. -/
def codeParts (c : CtuCode) : List (Nat × Bool) :=
  (c.head, false) :: (c.units.map (fun u => (u.bits, false) :: u.blocks.map (fun b => (b.bits, true)))).flatten

/-- R256 within a CTU: once its data has reached 28 KiB no block with residual follows, and what does follow takes at most 4 KiB. -/
def quietEnd : Nat → Nat → List (Nat × Bool) → Bool
  | _, after, [] => decide (after ≤ 32768)
  | before, after, (b, res) :: l =>
    if 229376 ≤ before then !res && quietEnd before (after + b) l else quietEnd (before + b) after l

/-- Whether a unit is the skip CU of R276, `w` x `h`, in CTU `c` of its stripe: merge index 0, or 0 or 1 in the stripe's first CTU. -/
def unitIsSkip (w h c : Nat) (u : CodingUnit) : Bool :=
  decide (u.x = 0 ∧ u.y = 0 ∧ u.w = w ∧ u.h = h ∧ u.blocks = []) &&
    match u.pred with
    | .skip m => decide (m = 0 ∨ (c = 0 ∧ m = 1))
    | _ => false

/-- Whether a CTU is the one skip CU of R276, with SAO and ALF off. -/
def codeIsSkip (w h c : Nat) (x : CtuCode) : Bool :=
  !x.sao && !x.alf && match x.units with
    | [u] => unitIsSkip w h c u
    | _ => false

/-- Whether units are 32 x 32 in a CTU of `h` lines, at its bottom edge as tall as the picture leaves them. -/
def bigUnits (h : Nat) (l : List CodingUnit) : Bool :=
  l.all (fun u => decide (u.w = 32 ∧ u.x % 32 = 0 ∧ u.y % 32 = 0 ∧ u.h = min 32 (h - u.y)))

/-- The most bits of a CTU of 32 x 32 intra units without residual (R296). -/
def bareMost (ctu32 : Bool) : Nat := if ctu32 then 16 else 48

/-- Whether a CTU is floor intra (R276): 32 x 32 planar units with DCT-II coefficients at most in the 4 x 4 lowest frequencies; without residual it
keeps the bound of R296. -/
def codeIsFloorIntra (w h : Nat) (ctu32 : Bool) (x : CtuCode) : Bool :=
  covers w h x.units && bigUnits h x.units
    && x.units.all (fun u => decide (u.pred = .intra .plain 0) && u.blocks.all (fun b => decide (b.kind = .dct2 ∧ b.extent ≤ 4)))
    && (x.units.any (fun u => decide (u.blocks ≠ [])) || decide (codeBits x ≤ bareMost ctu32))

/-- Whether a CTU is the DC CTU of R313: 32 x 32 units in DC mode without residual, SAO and ALF off, within the bound of R296. -/
def codeIsDc (w h : Nat) (ctu32 : Bool) (x : CtuCode) : Bool :=
  !x.sao && !x.alf && covers w h x.units && bigUnits h x.units
    && x.units.all (fun u => decide (u.pred = .intra .plain 1 ∧ u.blocks = [])) && decide (codeBits x ≤ bareMost ctu32)

/-- The skip CTU of R276. -/
def skipCtu (w h bits : Nat) : CtuCode := { units := [{ x := 0, y := 0, w := w, h := h, pred := .skip 0, bits := bits }] }

/-- The 32 x 32 units of a CTU in an intra mode, without residual; the bits stand with the first. -/
def plainCtu (w h mode bits : Nat) : CtuCode :=
  { units := ((List.range (ceilDiv h 32)).map (fun j => (List.range (ceilDiv w 32)).map (fun i =>
      { x := 32 * i, y := 32 * j, w := 32, h := min 32 (h - 32 * j), pred := .intra .plain mode
        bits := if i = 0 ∧ j = 0 then bits else 0 }))).flatten }

/-- Whether a unit keeps the tread's limits on CU size and splits (R278): in HEVC quadtree splits alone, units from 8 x 8 on, and asymmetric motion
partitions at T0 and T1. -/
def shapeAllowed (hevc : Bool) (tread : Nat) (u : CodingUnit) : Bool :=
  let row := treadRow tread
  let least := if hevc then max 8 row.smallest else row.smallest
  decide (least ≤ u.w ∧ least ≤ u.h) && u.splits.all (fun x => decide (x ∈ (if hevc then [.quad] else row.splits)))
    && (!u.cut || (hevc && decide (tread ≤ 1)))

/-- Whether a unit's intra prediction and the modes tested for it keep the tread's limits (R278): at T6 planar and DC alone; 35 modes in HEVC, 67
in VVC. -/
def intraAllowed (hevc : Bool) (tread : Nat) (tool : IntraTool) (mode tested : Nat) : Bool :=
  let row := treadRow tread
  decide (tested ≤ row.intra ∧ tool ∈ (if hevc then [.plain] else row.intraTools) ∧ mode < (if hevc then 35 else 67))
    && (decide (tread ≠ 6) || decide (mode ≤ 1))

/-- Whether an inter tool may be tried at a tread (R278): in HEVC merge and AMVP in place of VVC's tools. -/
def toolAllowed (hevc : Bool) (tread : Nat) (tool : InterTool) : Bool :=
  decide (tool ∈ (treadRow tread).inter) && (!hevc || decide (tool ∈ [InterTool.merge, .uni, .bi]))

/-- Whether a unit's blocks use the transforms and its CTU the coefficient decision of the tread (R278). -/
def transformsAllowed (hevc : Bool) (tread : Nat) (u : CodingUnit) : Bool :=
  u.blocks.all (fun b => decide (b.kind ∈ (if hevc then [TransformKind.dct2] else (treadRow tread).transforms)))

/-- Whether a unit of CTU `c` of stripe `k` of picture `p` may be coded so at a tread above T7 (R270, R273, R278, R279): every vector lies in its
range and reads what it may; one that is coded beside a predictor is a position of the search; affine steps are sixteenths at T0 and T1. -/
def State.unitAllowed (s : State) (r : BayRun) (t : Task) (p : CodedPic) (tread c : Nat) (u : CodingUnit) : Bool :=
  let hevc := s.hevc t.out
  shapeAllowed hevc tread u && transformsAllowed hevc tread u &&
    match u.pred with
    | .skip _ => s.mayRead t.out p t.stripe c u { ref := 0, x := 0, y := 0 }
    | .intra tool mode => intraAllowed hevc tread tool mode u.tested
    | .inter tool ms =>
      toolAllowed hevc tread tool && decide (ms ≠ []) && ms.all (fun m =>
        motionInRange m (treadRow tread) tool && s.mayRead t.out p t.stripe c u m
          && (decide (tool ≠ .uni ∧ tool ≠ .bi) || searched r t tread c u m)
          && (decide (tool ≠ .affine) || decide (tread ≤ 1) || decide (m.x % 4 = 0 ∧ m.y % 4 = 0)))

/-- Whether a CTU may be coded so at a tread above T7, beside its size: `intraOnly` for a CTU of a band (R274) or one that no candidate can serve
(R361). -/
def State.ctuAllowed (s : State) (r : BayRun) (t : Task) (p : CodedPic) (tread c : Nat) (intraOnly : Bool) (x : CtuCode) : Bool :=
  let row := treadRow tread
  let w := ctuHeight p.ctu32
  covers w (s.ctuLines t.out t.stripe p.ctu32) x.units && quietEnd 0 0 (codeParts x)
    && (!x.sao || row.sao) && (!x.alf || (row.alf && !s.hevc t.out)) && (!x.trellis || row.trellis)
    && x.units.all (fun u => s.unitAllowed r t p tread c u && (!intraOnly || match u.pred with
      | .intra _ _ => true
      | _ => false))

end Sys2Proof.Machine
end

