-- ==== Sys2Proof/Machine/Stair.lean ====
section
/-!
DEFINITION. Machine/Stair.lean: buckets, caps and reserves, treads at landings, cancellation, re-dispatch, floor synthesis and
pooled groups (spec 11), with the bays' side of them (spec 10, R250 to R256, R288).
-/
namespace Sys2Proof.Machine

/-! ### Rates and buckets (R300 to R302) -/

/-- Seconds between two instants of the counter. -/
def secondsBetween (a b : Nat) : Rat := ((b - a : Nat) : Rat) / (Config.unitsPerSec : Rat)

/-- The fill just before a stripe that launches at `at'` enters (R300). -/
def drained (drain fill : Rat) (last : Option Nat) (at' : Nat) : Rat :=
  match last with
  | none => 0
  | some l => max 0 (fill - drain * secondsBetween l at')

/-- The cap of R302 at a fill. -/
def capAt (size before : Rat) : Nat := (size - before).floor.toNat

/-- The bucket's fill after the stripes before `launch`, at their real size, their current cap, or the cap this rule gives them
now, in launch order (R302). -/
def projected (drain size : Rat) (launch : Nat) : List StripeRate → Rat × Option Nat → Rat × Option Nat
  | [], f => f
  | e :: l, f =>
    if e.launch < launch then
      let before := drained drain f.1 f.2 e.launch
      let b := match e.size, e.cap with
        | some n, _ => n
        | none, some c => c
        | none, none => capAt size before
      projected drain size launch l (before + (b : Rat), some e.launch)
    else projected drain size launch l f

/-- `proj` of R302 for the stripe of a task, with the launch before it. -/
def State.projAt (s : State) (t : Task) : Rat × Option Nat :=
  let r := s.out t.out
  projected (s.drain t.out : Rat) (s.bucketSize t.out t.ann.ctu32) t.launchAt r.rates (r.fill, r.last)

/-- `proj` less the drain since the previous launch, for the stripe of a task (R302). -/
def State.projOf (s : State) (t : Task) : Rat := drained (s.drain t.out : Rat) (s.projAt t).1 (s.projAt t).2 t.launchAt

/-- A stripe's record in its output's bucket changed. -/
def State.onRate (s : State) (t : Task) (f : StripeRate → StripeRate) : State :=
  s.onOut t.out (fun r => { r with
    rates := r.rates.map (fun e => if e.grid = t.ann.grid ∧ e.stripe = t.stripe then f e else e) })

/-! ### The floor reserve (R296, R297) -/

/-- The floor allowance of one CTU (R296). -/
def State.allowance (s : State) (slot : Nat) (ctu32 : Bool) : Nat :=
  if ctu32 then ceilDiv (s.fld (STC.FLOOR_ALLOW slot)) 4 else s.fld (STC.FLOOR_ALLOW slot)

/-- The picture just before `p` in its coded video sequence. -/
def State.picBefore (s : State) (o : Nat) (p : CodedPic) : Option CodedPic := (earlierPics (s.out o).pics p).head?

/-- Whether a CTU lies in the refresh band or in a suspect band of its picture (R270, R274, R361). -/
def State.inBand (s : State) (o : Nat) (p : CodedPic) (k c : Nat) : Bool :=
  let b := s.bandOf o p.index (s.outCtus o p.ctu32)
  (decide (b.1 ≤ c) && decide (c < b.2)) || decide ((k, c) ∈ p.bands) ||
    match s.picBefore o p with
    | some q => decide ((k, c) ∈ q.suspects)
    | none => false

/-- Whether the skip CTU of R276 would copy a suspect area: reference 0 is the picture before, or in two layers the one R281 gives. -/
def State.copiesSuspect (s : State) (o : Nat) (p : CodedPic) (k c : Nat) : Bool :=
  match s.copied o p with
  | some q => decide ((k, c) ∈ q.suspects)
  | none => false

/-- Whether a CTU needs floor intra (R276, R297). -/
def State.needsIntra (s : State) (o : Nat) (p : CodedPic) (k c : Nat) : Bool :=
  p.index = 0 || s.inBand o p k c || s.copiesSuspect o p k c

/-- H_k of R297: the bits of the NAL units placed with the stripe and of its slice header, known before it is dispatched. -/
def State.stripeHeader (s : State) (t : Task) : Nat :=
  match s.picOf t.out t.ann.grid with
  | none => 0
  | some p => s.stripeBits t.out t.stripe p []

/-- The part of H_k that is not the slice's own. -/
def State.besideSlice (s : State) (t : Task) : Nat :=
  match s.picOf t.out t.ann.grid with
  | none => 0
  | some p => s.stripeBits t.out t.stripe p [] - s.sliceBits t.out t.stripe p []

/-- The floor reserve of the CTUs from `next` on (R297). -/
def State.reserveFrom (s : State) (t : Task) (next : Nat) : Nat :=
  match s.picOf t.out t.ann.grid with
  | none => 0
  | some p =>
    let n := s.outCtus t.out t.ann.ctu32
    let a := s.allowance (outSlot t.out) t.ann.ctu32
    ((List.range (n - next)).map (fun i => if s.needsIntra t.out p t.stripe (next + i) then a else 16)).foldl (· + ·) 0

/-! ### Treads (R253, R278, R293) -/

/-- Worst-case cycles per CTU of a tread (R278, R284). -/
def treadCost (ctu32 : Bool) (t : Nat) : Nat :=
  let c := nth [2048, 1792, 1536, 1280, 1024, 768, 512, 128] t 128
  if ctu32 then c / 4 else c

/-- The CTU before which landing `j` of a stripe of `n` CTUs falls (R253). -/
def landingCtu (n j : Nat) : Nat := j * n / 8

/-- The tread search of R293: the first tread from `t` on, at most 7, whose time for `rem` CTUs fits in `left`. -/
def treadFrom (ctu32 : Bool) (rem : Nat) (left : Int) : Nat → Nat → Nat
  | 0, t => t
  | fuel + 1, t => if t < 7 ∧ left < (rem * treadCost ctu32 t : Nat) then treadFrom ctu32 rem left fuel (t + 1) else t

/-- Cycles left to the deadline at landing `j` (R293). -/
def State.cyclesLeft (s : State) (t : Task) (j : Nat) : Int :=
  ((t.dead : Int) - (s.cyc : Int)) * (s.engHz : Int) / 400000000 - (24 * (7 - j) : Nat)

/-! ### Target and QP (R303) -/

/-- The key of a slot's rate tables: `which` 0 the set in force, 1 the shadow. -/
def rateKey (slot which : Nat) : Nat := 2 * slot + which

/-- The words of the rate tables in force for a slot; an entry that could not be read reads as at reset (R309, R362). -/
def State.rateTable (s : State) (slot : Nat) : Nat → Nat :=
  let r := Store.at s.rates {} (rateKey slot 0)
  fun w => Config.rateWord (if w ∈ r.bad then 0 else r.set) w

/-- A summary's modelled bits at qp_ref for an output, from its SUM_ACT. -/
def State.modelOf (s : State) (o : Nat) (b : List Byte) : Nat :=
  Config.modelBits (s.rateTable (outSlot o)) o (summaryAct b) Config.qpRef

/-- The floor rate of a member of a pooled group, kb/s (R306). -/
def State.floorKbps (s : State) (o : Nat) : Nat := s.fld (STC.OUT_RATE_KBPS (o / 16) (o % 16))

/-- The bits the picture at a grid point may take (R303, R307): its share of the pool period in which its capture time falls; a member without
one, which joined within that period, has its floor (log entry 77); a CBR output has its rate. -/
def State.picBudget (s : State) (o grid : Nat) : Rat :=
  let period := pictureSeconds (s.rate (outSlot o))
  match (s.picOf o grid).bind CodedPic.share with
  | some b => (b : Rat)
  | none => if s.pooled o then ((1000 * s.floorKbps o : Nat) : Rat) * period else (s.drain o : Rat) * period

/-- The stripe's target at landing 0 (R303), from `proj` as it stands before the drain since the previous launch. -/
def State.targetOf (s : State) (t : Task) (proj : Rat) (cap : Nat) : Nat :=
  let a := t.ann
  let ck := s.modelOf t.out (s.summaryAt a.slot a.sub a.picture a.stripe)
  let call := ck + ((List.range (stripesOf (s.lines a.slot) a.ctu32)).map (fun j =>
    if j = a.stripe then 0 else s.modelOf t.out (s.summaryBefore a j))).foldl (· + ·) 0
  let w := bucketWindow (s.outDAs t.out a.ctu32) a.ctu32
  let share : Rat := if call = 0 then 0 else s.picBudget t.out a.grid * (ck : Rat) / (call : Rat)
  let x := share + (s.bucketSize t.out a.ctu32 / 2 - proj) / ((w + 1 : Nat) : Rat)
  let reserve := s.stripeHeader t + s.reserveFrom t 0
  min cap (max reserve x.floor.toNat)

/-- round(6 log2 (a / b)) limited to [-3, 3]: the number of half steps reached, by exact comparison of twelfth powers (R303). -/
def qpStep (a b : Nat) : Int :=
  let reached (k : Int) : Bool :=
    if 1 ≤ 2 * k then decide (b ^ 12 * 2 ^ (2 * k - 1).toNat ≤ a ^ 12)
    else decide (b ^ 12 ≤ a ^ 12 * 2 ^ (1 - 2 * k).toNat)
  if reached 3 then 3 else if reached 2 then 2 else if reached 1 then 1 else if reached 0 then 0
  else if reached (-1) then -1 else if reached (-2) then -2 else -3

/-- qp_max of an output: 63 for VVC, 51 for HEVC (R303). -/
def State.qpMax (s : State) (o : Nat) : Nat := if s.hevc o then 51 else 63

/-! ### Causes of FLOORED (R299) -/

/-- The stripe a task codes meets a cause of R299: its picture carries FLOORED, and it counts once. -/
def floorCause (t : Task) (counted : Bool) (s : State) : State :=
  let u := s.flagPic t.out t.ann.grid 2
  if counted then u else u.onSelStats t.ann.slot t.ann.grid t.out (fun x => { x with floored := x.floored + 1 })

/-- CTUs coded at a tread, in the performance counters and the statistics block (R449, R455). -/
def countCtus (bay : Nat) (t : Task) (tread n : Nat) (s : State) : State :=
  let u := (s.count 5 2 bay n).count 5 (16 + tread) bay n
  u.onSelStats t.ann.slot t.ann.grid t.out (fun x =>
    { x with treads := Store.put x.treads 0 tread (Store.at x.treads 0 tread + n) })

/-- A completed rebuild swaps in at the slot's first landing after it (R310). -/
def swapTables (slot : Nat) (s : State) : State :=
  if s.fld (STC.TABLES_PENDING slot) = 1 then
    let s := { s with rates := Store.put s.rates {} (rateKey slot 0) (Store.at s.rates {} (rateKey slot 1)) }
    ((s.wrapFld (STC.TABLES_GEN slot)).setFld (STC.TABLES_PENDING slot) 0).setFld (STC.TABLES_STALE_RUN slot) 0
  else s

/-- LATE_RISK (R294). -/
def lateRisk (slot : Nat) (s : State) : State := (s.satFld (STC.FAULTS_LATE_RISKS slot)).raise (Pg.stc slot) 3

/-- A bay's run. -/
def State.bayRun (s : State) (n : Nat) : Option BayRun :=
  match s.bays.find? (fun e => e.1 = n) with
  | some e => some e.2
  | none => none

/-- A bay's run replaced. -/
def State.setBay (s : State) (n : Nat) (r : BayRun) : State := { s with bays := (s.bays.erase n).insert n r }

/-! ### CTUs (R255, R256, R296, R298) -/

/-- Whether CTU `c` is floor intra whatever its tread: in an opening picture, outside its band (R275). -/
def State.alwaysFloor (s : State) (o : Nat) (p : CodedPic) (k c : Nat) : Bool := decide (p.index = 0) && !s.inBand o p k c

/-- The QPs of the quantization groups of CTUs `first` to `last` - 1 of a stripe at a tread: a group is a CTU, 64 x 64 or 32 x 32 in Short Span
(R262). Each is the stripe's QP with the bit map's offset of a 32 x 32 block (R303; in a 64 x 64 group which of the four is a free value), or the
floor QP where the CTU is floor intra (R276, R296). -/
def State.groupQps (s : State) (t : Task) (tread qp first last : Nat) : List Nat :=
  let per := ctuHeight t.ann.ctu32 / 32
  let floor (c : Nat) : Bool := match s.picOf t.out t.ann.grid with
    | some p => s.alwaysFloor t.out p t.stripe c || (decide (tread = 7) && s.needsIntra t.out p t.stripe c)
    | none => false
  let b := Config.groupBlock % (per * per)
  (List.range (last - first)).map (fun c =>
    let off := clampInt (-6) 6 (Config.bitMap (s.rateTable (outSlot t.out)) (t.stripe * per + b / per) ((first + c) * per + b % per))
    if floor (first + c) then min (s.qpMax t.out) (s.fld (STC.FLOOR_FLOOR_QP (outSlot t.out)))
    else (clampInt 0 (s.qpMax t.out : Int) ((qp : Int) + off)).toNat)

/-- The QPs that a CTU with residual adds to a picture's mean (R455): its group's, or under the T7 rules the floor QP (R276). -/
def State.addQuant (s : State) (t : Task) (r : BayRun) (c : Nat) (seven : Bool) (code : CtuCode) : Nat × Nat :=
  if code.units.any (fun u => decide (u.blocks ≠ [])) then
    (r.quant.1 + (if seven then min (s.qpMax t.out) (s.fld (STC.FLOOR_FLOOR_QP (outSlot t.out)))
      else nth r.qps (c - landingCtu (s.outCtus t.out t.ann.ctu32) (r.landings - 1)) 0), r.quant.2 + 1)
  else r.quant

/-- The most bits that CTU `c` of a stripe takes: under the T7 rules the floor allowance or 16, else 32 KiB and what the cap leaves beside the
floor reserve of the CTUs after it (R256, R275, R276, R296, R298). -/
def State.ctuMost (s : State) (t : Task) (cap bits c : Nat) (seven : Bool) : Nat :=
  match s.picOf t.out t.ann.grid with
  | none => 16
  | some p =>
    if seven then (if s.needsIntra t.out p t.stripe c then s.allowance (outSlot t.out) t.ann.ctu32 else 16)
    else if s.alwaysFloor t.out p t.stripe c then s.allowance (outSlot t.out) t.ann.ctu32
    else min 262144 (cap - bits - s.reserveFrom t (c + 1))

/-- Whether CTU `c` of a stripe may be coded so (R270, R274 to R276, R278, R296, R361, R362): floor intra or the skip CTU under the T7 rules, floor
intra outside the band of an opening picture, the skip or DC CTU where its source could not be trusted, intra in a band, else what the tread
allows. -/
def State.codeAllowed (s : State) (r : BayRun) (t : Task) (tread c : Nat) (seven : Bool) (x : CtuCode) : Bool :=
  match s.picOf t.out t.ann.grid with
  | none => false
  | some p =>
    let w := ctuHeight p.ctu32
    let h := s.ctuLines t.out t.stripe p.ctu32
    if c ∈ r.spoilt then
      (if p.index = 0 ∨ s.copiesSuspect t.out p t.stripe c then codeIsDc w h p.ctu32 x else codeIsSkip w h c x)
    else if seven then
      (if s.needsIntra t.out p t.stripe c then codeIsFloorIntra w h p.ctu32 x && !x.sao && !x.alf else codeIsSkip w h c x)
    else if s.alwaysFloor t.out p t.stripe c then codeIsFloorIntra w h p.ctu32 x
    else s.ctuAllowed r t p tread c (s.inBand t.out p t.stripe c) x

/-- Whether a CTU is the skip CU of its place (R276). -/
def State.codeCopies (s : State) (t : Task) (c : Nat) (x : CtuCode) : Bool :=
  codeIsSkip (ctuHeight t.ann.ctu32) (s.ctuLines t.out t.stripe t.ann.ctu32) c x

/-- A run over CTUs and what its check saw: whether every CTU kept its limit, and how many were coded under the T7 rules. -/
structure CtuRun where
  run   : BayRun
  fits  : Bool := true
  seven : Nat := 0
deriving DecidableEq, Repr

/-- One CTU at a tread, as it was coded. Before it the slice's size with 32 KiB and the floor reserve of the CTUs after it is held against 512 KiB
(R256); after it the stripe's bits with that reserve against the cap (R298). Whichever is reached first governs. -/
def codeCtu (s : State) (t : Task) (tread : Nat) (x : CtuRun) (code : CtuCode) : CtuRun :=
  let r := x.run
  let b := codeBits code
  let c := r.ctus
  let after := s.reserveFrom t (c + 1)
  let sized := r.sized || (!r.ended && decide (4194304 ≤ (r.bits - s.besideSlice t) + 262144 + after))
  let seven := decide (tread = 7) || r.ended || sized
  let bits := r.bits + b
  let full := r.ended || (!sized && decide (c + 1 < s.outCtus t.out t.ann.ctu32 ∧ r.cap ≤ bits + after))
  { run := { r with ctus := c + 1, bits := bits, sized := sized, ended := full
                    budget := r.budget + treadCost t.ann.ctu32 (if seven then 7 else tread), copied := r.copied && s.codeCopies t c code
                    quant := s.addQuant t r c seven code }
    fits := x.fits && decide (b ≤ s.ctuMost t r.cap r.bits c seven) && s.codeAllowed r t tread c seven code
    seven := x.seven + b2n seven }

/-- The CTUs of a segment, at the tread of the run's last landing. -/
def codeCtus (s : State) (t : Task) (r : BayRun) (ctus : List CtuCode) : CtuRun :=
  ctus.foldl (codeCtu s t (r.treads.getLast?.getD 7)) { run := r }

/-- What a segment's CTUs leave behind: they are counted at their tread, and an end under R256 is a cause of R299. -/
def afterCtus (n : Nat) (t : Task) (r : BayRun) (x : CtuRun) (k : Nat) (s : State) : State :=
  let u := countCtus n t 7 x.seven (countCtus n t (r.treads.getLast?.getD 7) (k - x.seven) s)
  if x.run.sized ∧ r.sized = false then
    let u := floorCause t r.forced u
    if r.forced then u else u.satFld (BAY.FAULT_FLOORED n)
  else u

/-- The landing itself, for landing j of the run `r` of task `t` on bay `n`, whose CTUs before it are coded (R254, R293 to R303). -/
def landing (n : Nat) (r : BayRun) (t : Task) (s : State) : State :=
  let o := t.out
  let slot := outSlot o
  let ctu32 := t.ann.ctu32
  let cts := s.outCtus o ctu32
  let j := r.landings
  let next := landingCtu cts j
  let rem := cts - next
  let left := s.cyclesLeft t j
  let top := s.fld (STC.TREAD_TREAD_TOP slot)
  let fit := treadFrom ctu32 rem left 8 top
  let risk := decide (left < (rem * treadCost ctu32 7 : Nat))
  let proj := s.projOf t
  let cap := max r.bits (capAt (s.bucketSize o ctu32) proj)
  let full := r.ended || (!r.sized && decide (cap ≤ r.bits + s.reserveFrom t next))
  let tread := if full ∨ t.ann.repeat_ then 7 else fit
  let cause := (decide (fit = 7) && decide (top < 7)) || full
  let target := if j = 0 then s.targetOf t (s.projAt t).1 cap else r.target
  let qp := if j = 0 then min (s.qpMax o) (Config.qpForBits (s.rateTable slot) o
      (summaryAct (s.summaryAt t.ann.slot t.ann.sub t.ann.picture t.ann.stripe)) target)
    else (clampInt 0 (s.qpMax o : Int) ((r.qp : Int) + qpStep (r.bits * cts) (target * next))).toNat
  let u := if risk then lateRisk slot s else s
  let u := if cause then floorCause t r.forced u else u
  let u := if cause ∧ r.forced = false then u.satFld (BAY.FAULT_FLOORED n) else u
  let u := u.onRate t (fun e => { e with cap := some cap })
  let u := ((u.setFld (BAY.STAT_STATE n) 2).setFld (BAY.STAT_TREAD n) tread).setFld (BAY.STAT_LANDING n) j
  let refs := match s.picOf o t.ann.grid with
    | some p => (s.deltas o p).length
    | none => 0
  u.setBay n { r with landings := j + 1, treads := r.treads ++ [tread], cap := cap, target := target, qp := qp, ended := full
                      seeds := segmentSeeds r t refs tread next (landingCtu cts (j + 1)), refine := seedRefine tread
                      qps := s.groupQps t tread qp next (landingCtu cts (j + 1))
                      lambda := Config.lambdaAt (s.rateTable slot) qp
                      forced := r.forced || cause, risk := r.risk || risk, held := r.replay.isSome }

/-- The run of a bay before its next landing: at landing 0 the stripe holds the bits of its NAL units and slice header, later the CTUs of the
segment too. -/
def beforeLanding (s : State) (t : Task) (r : BayRun) (ctus : List CtuCode) : CtuRun :=
  if r.landings = 0 then { run := { r with bits := s.stripeHeader t } } else codeCtus s t r ctus

/-! ### The end of a run, of either kind -/

/-- A bay falls idle: IDLE, DISABLED, FROZEN or RETIRED as its page and ARCC.BAYS stand (R286, R287). -/
def bayIdle (n : Nat) (s : State) : State :=
  let st := if bitAt (s.fld ARCC.BAYS_RETIRED) n then 3 else if s.bayFrozen n then 4
    else if s.fld (PG_CTRL_ENABLE (Pg.bay n)) = 0 then 5 else 0
  ({ s with bays := s.bays.erase n }).setFld (BAY.STAT_STATE n) st

/-- ARCC.BAYS.AVAILABLE of a bay, and its STATE while it has no task. -/
def showBay (n : Nat) (s : State) : State :=
  let ok := !bitAt (s.fld ARCC.BAYS_RETIRED) n && !s.bayFrozen n && s.fld (PG_CTRL_ENABLE (Pg.bay n)) = 1
  let a := s.fld ARCC.BAYS_AVAILABLE
  let t := s.setFld ARCC.BAYS_AVAILABLE (if ok then orBit a n else clearBit a n)
  if (t.bayRun n).isNone ∨ bitAt (t.fld ARCC.BAYS_RETIRED) n ∨ t.bayFrozen n then
    t.setFld (BAY.STAT_STATE n)
      (if bitAt (t.fld ARCC.BAYS_RETIRED) n then 3 else if t.bayFrozen n then 4
       else if t.fld (PG_CTRL_ENABLE (Pg.bay n)) = 0 then 5 else 0)
  else t

/-- ENC bit of a task's stripe (R319). -/
def encDone (t : Task) (s : State) : State := s.onTag t.out t.ann.grid (fun g => { g with enc := addBit g.enc t.stripe })

/-- A floor synthesis falls due (R291, R294, R312, R313): the slot becomes ASSEMBLE and waits for the ENC bit, the synthesis joins
the queue by deadline, FLOOR_SYNTH is raised and counted, and the picture carries FLOORED. -/
def floorDue (i : Nat) (t : Task) (counted : Bool) (s : State) : State :=
  let slot := outSlot t.out
  let u := s.setTask i { t with kind := .assemble, st := .waiting, redisp := false, floored := true, code := [] }
  let u := u.onRate t (fun e => { e with cap := none })
  let later (k : Nat) : Bool := match s.task k with
    | some x => decide (x.dead ≤ t.dead)
    | none => true
  let u := { u with floorQ := s.floorQ.takeWhile later ++ [i] ++ s.floorQ.dropWhile later }
  let u := (u.satFld (STC.FAULTS_FLOOR_SYNTHS slot)).raise (Pg.stc slot) 1
  let u := floorCause t counted u
  u.onSelStats t.ann.slot t.ann.grid t.out (fun x => { x with synths := x.synths + 1 })

/-- START_LIMIT_EXPIRY (R291, R324, R325): a task not yet given to a bay reaches its start limit and is cancelled. -/
def execStartLimitExpiry (task : Fin 4096) (s : State) : Out :=
  finish s <|
    match s.task task.val with
    | none => s
    | some t =>
      if s.inService ∧ t.kind.consumer = .bays ∧ t.engine = none ∧ s.limitOf t ≤ s.cyc then
        settle (floorDue task.val t false (s.wrapFld DSP.CANCELLED_COUNT))
      else s

/-- ENG_CLK cycles x 400 MHz from a TIME_CLK cycle to `last`, at `hz` since the newest of the edges before it (R21). -/
def engParts (start : Nat) : Nat → Nat → List (Nat × Nat) → Nat
  | last, hz, [] => (last - start) * hz
  | last, hz, (edge, before) :: l =>
    if start < edge then (last - edge) * hz + engParts start edge before l else (last - start) * hz

/-- ENG_CLK cycles from a TIME_CLK cycle to now, each span at the clock that was in force (R21). -/
def State.engSince (s : State) (start : Nat) : Nat := engParts start s.cyc s.engHz s.span.edges / 400000000

/-- The slice of a bay's run is discarded and the bay returns to dispatch; the cycles it spent on the task count (BAYn.BUSY, R449). -/
def abandonRun (n : Nat) (s : State) : State :=
  match s.bayRun n with
  | none => bayIdle n s
  | some r =>
    let k := s.engSince r.start
    bayIdle n ((s.wrapFld (BAY.BUSY_CYCLES n) k).count 5 1 n k)

/-- A bay is retired (R286, R353): ARCC.BAYS, BAY_RETIRED, a fault record, and READY becomes DEGRADED. -/
def retireBay (n : Nat) (s : State) : State :=
  if bitAt (s.fld ARCC.BAYS_RETIRED) n then s
  else
    let t := s.setFld ARCC.BAYS_RETIRED (orBit (s.fld ARCC.BAYS_RETIRED) n)
    let t := showBay n t
    let t := t.record 0x22 4 (t.reg (Pg.arcc + 0x40)).toNat n
    let t := drain n { t.master n with byReset := true, bayOnly := true } t
    let t := t.raise Pg.arcc 0
    if t.ready = .ready then { t with ready := .degraded } else t

/-- Ten seconds in TIME_CLK cycles (R353). -/
def tenSeconds : Nat := msCyc 10000

/-- A fault that counts toward bay `n`'s retirement (R353): the third within 10 s of the first of the last three retires it. Answers
whether it did. -/
def countFault (n : Nat) (s : State) : State × Bool :=
  let e := Store.at s.bayLog {} n
  let log := (s.cyc :: e.faults).take 3
  let t := { s with bayLog := Store.put s.bayLog {} n { e with faults := log } }
  let t := t.satFld (BAY.FAULT_RESIDUE n)
  let t := t.setFld (BAY.FAULT_RECENT n) (log.filter (fun f => decide (s.cyc < f + tenSeconds))).length
  match log with
  | [_, _, f] => if s.cyc ≤ f + tenSeconds ∧ bitAt (s.fld ARCC.BAYS_RETIRED) n = false then (retireBay n t, true) else (t, false)
  | _ => (t, false)

/-- DEADLINE_EXPIRY (R294, R364): the deadline passes with the stripe unfinished in a bay; the fault of a replay it cuts off still
counts. -/
def execDeadlineExpiry (bay : Fin 16) (s : State) : Out :=
  finish s <|
    match s.bayRun bay.val with
    | none => s
    | some r =>
      match s.task r.task with
      | none => s
      | some t =>
        if s.inService ∧ t.dead ≤ s.cyc then
          let u := if r.replay.isSome then (countFault bay.val s).1 else s
          let u := if r.risk then u else lateRisk (outSlot t.out) u
          settle (floorDue r.task t r.forced (abandonRun bay.val u))
        else s

/-- An engine loss of the task a bay runs (R312): before its start limit the stripe is re-dispatched in its slot at level 0, else
it is floor-synthesized. -/
def engineLoss (n : Nat) (s : State) : State :=
  match s.bayRun n with
  | none => s
  | some r =>
    let u := abandonRun n s
    match s.task r.task with
    | none => u
    | some t =>
      let slot := outSlot t.out
      if s.cyc < s.limitOf { t with kind := .encode } then
        let u := u.setTask r.task { t with kind := if isProxy t.out then .proxy else .encode, st := .waiting, redisp := true }
        let u := u.onRate t (fun e => { e with cap := none })
        let u := (u.satFld (STC.FAULTS_REDISPATCHES slot)).raise (Pg.stc slot) 2
        settle (u.onSelStats t.ann.slot t.ann.grid t.out (fun x => { x with redisp := x.redisp + 1 }))
      else settle (floorDue r.task t r.forced u)

/-- The treads of a run packed as BAYn.LAST and the statistics block show them (R455). -/
def packTreads (l : List Nat) : Nat := (l.zipIdx).foldl (fun a e => a + (e.1 % 8) * 8 ^ e.2) 0

/-- A stripe's slice and reconstruction are final (R251, R313, R352): its bits enter the bucket and the statistics block with the run's treads,
its suspect CTUs replace any before, its slice waits for assembly in the slot `i`, and its reconstruction is kept. `recon` is that of a floor
synthesis. -/
def stripeFinal (i : Nat) (t : Task) (data : List Byte) (suspects treads : List Nat) (recon : Option (List Byte)) (s : State) : State :=
  match s.picOf t.out t.ann.grid with
  | none => s.setTask i { t with code := data }
  | some p =>
    let bits := s.stripeBits t.out t.stripe p data
    let u := s.setTask i { t with code := data }
    let u := u.onRate t (fun e => { e with size := some bits })
    let u := u.onCoded t.out t.ann.grid (fun q => { q with
      suspects := q.suspects.filter (fun e => e.1 ≠ t.stripe) ++ suspects.map (fun c => (t.stripe, c)) })
    let u := keepRecon t.out t.ann.grid t.stripe (recon.getD (s.sliceRecon t.out t.stripe p data)) u
    u.onSelStats t.ann.slot t.ann.grid t.out (fun x => { x with stripes := Store.put x.stripes (0, 0) t.stripe (packTreads treads, bits) })

/-- The bytes of a slice's data whose CTUs took `bits`. -/
def sliceBytes (bits : Nat) : Nat := ceilDiv bits 8

/-- The bits that a stripe may have at most (R298, R300): its cap, or where its floor reserve exceeds that, the reserve (R304). -/
def State.stripeMost (s : State) (t : Task) (cap : Nat) : Nat := max cap (s.stripeHeader t + s.reserveFrom t 0)

/-- Whether a slice's data keeps the slice within 512 KiB (R256) and every byte of the stripe's NAL units within its cap (R298, R300). -/
def State.sliceFits (s : State) (t : Task) (cap : Nat) (data : List Byte) : Bool :=
  match s.picOf t.out t.ann.grid with
  | none => true
  | some p => decide (s.stripeBits t.out t.stripe p data ≤ s.stripeMost t cap
      ∧ s.sliceBits t.out t.stripe p data ≤ 4194304)

/-- The reconstruction of a stripe whose every CTU is a skip CTU: an exact copy (R276). -/
def State.copyRecon (s : State) (t : Task) (r : BayRun) : Option (List Byte) :=
  match s.picOf t.out t.ann.grid with
  | some p => if r.copied ∧ p.index ≠ 0 then some (s.floorRecon t.out t.stripe p) else none
  | none => none

/-- A bay has completed a stripe in this cycle. -/
def noteDone (n : Nat) (s : State) : State :=
  { s with bayLog := Store.put s.bayLog {} n { Store.at s.bayLog {} n with doneAt := some s.cyc } }

/-- STRIPE_COMPLETE (R251, R255, R256, R292, R298, R350): the bay's last CTUs are coded by the deadline, each within its limits, all within the cycles
of their treads and of its replays, and the slice within its cap; slice and reconstruction are final and written. -/
def execStripeComplete (bay : Fin 16) (coded : StripeCoded) (s : State) : Out :=
  finish s <|
    let n := bay.val
    match s.bayRun n with
    | none => s
    | some r =>
      match s.task r.task with
      | none => s
      | some t =>
        let x := codeCtus s t r coded.ctus
        if s.inService = false ∨ r.landings < 8 ∨ r.replay.isSome ∨ t.dead < s.cyc ∨ x.fits = false
            ∨ x.run.ctus ≠ s.outCtus t.out t.ann.ctu32 ∨ 4096 + x.run.budget + r.extra < coded.cycles
            ∨ coded.bytes.length ≠ sliceBytes (x.run.bits - s.stripeHeader t) ∨ s.sliceFits t r.cap coded.bytes = false then s
        else
          let u := afterCtus n t r x coded.ctus.length s
          let u := u.onSelStats t.ann.slot t.ann.grid t.out (fun y => { y with
            quant := (y.quant.1 + x.run.quant.1, y.quant.2 + x.run.quant.2) })
          let u := (u.setFld (BAY.LAST_TREADS n) (packTreads r.treads)).setFld (BAY.LAST_CYCLES n) coded.cycles
          let u := u.setFld (BAY.LAST_MARGIN_MARGIN n) ((t.dead - s.cyc) * s.engHz / 400000000)
          let u := (u.wrapFld (BAY.COUNT_STRIPES n)).wrapFld (BAY.BUSY_CYCLES n) coded.cycles
          let u := u.count 5 1 n coded.cycles
          settle (freeTags (bayIdle n (encDone t (stripeFinal r.task { t with kind := .assemble, st := .waiting, redisp := false }
            coded.bytes r.suspects r.treads (s.copyRecon t x.run) (noteDone n u)))))

/-! ### Floor paths (R313 to R315, R351) -/

/-- The floor paths that serve a stripe's width: beside bays 0 to 7 for 7680 columns, beside 8 to 15 for the others (R315). -/
def State.pathsFor (s : State) (o : Nat) : List Nat :=
  (if s.outWidth o = 7680 then List.range 8 else (List.range 8).map (· + 8)).filter (fun n =>
    !s.stopped n && !s.floors.any (fun e => e.1 = n))

/-- FLOOR_SYNTH_START (R313, R315): the first queued synthesis whose set has a free path is given to the lowest one. -/
def execFloorSynthStart (s : State) : Out :=
  finish s <|
    let pick := takeFirst (fun i => match s.task i with
      | some t => !(s.pathsFor t.out).isEmpty
      | none => false) s.floorQ
    match pick with
    | none => s
    | some (i, rest) =>
      match s.task i with
      | none => s
      | some t =>
        match (s.pathsFor t.out).head? with
        | none => s
        | some n =>
          if s.inService then
            let u := { s with floorQ := rest, floors := s.floors.insert n { task := i, start := s.cyc } }
            u.setFld (EAU.STAT_FLOOR_BUSY n) 1
          else s

/-- Whether the zero-motion read of CTU column `c` from reference 0 breaks R273 (R314). -/
def State.breaksClean (s : State) (o : Nat) (p : CodedPic) (c : Nat) : Bool :=
  match s.refPicture o p 0 with
  | none => false
  | some r => !s.keepsClean o p r c (((c + 1) * ctuHeight p.ctu32 : Nat) - 1 : Int)

/-- The CTUs that a floor synthesis leaves suspect (R314). -/
def State.floorSuspects (s : State) (t : Task) : List Nat :=
  match s.picOf t.out t.ann.grid with
  | none => []
  | some p =>
    let all := List.range (s.outCtus t.out t.ann.ctu32)
    if p.index = 0 then all
    else all.filter (fun c => s.inBand t.out p t.stripe c || s.copiesSuspect t.out p t.stripe c || s.breaksClean t.out p c)

/-- The CTUs of a floor synthesis (R313): each the skip CTU where the picture has a reference, at most 16 bits, else the DC CTU, at most 48 bits or
16 for a 32 x 32 CTU (R276, R296). `bits` gives the bits that a CTU takes beside the bound. -/
def State.floorCtus (s : State) (t : Task) (p : CodedPic) (bits : Nat → Nat) : List CtuCode :=
  let w := ctuHeight p.ctu32
  let h := s.ctuLines t.out t.stripe p.ctu32
  (List.range (s.outCtus t.out p.ctu32)).map (fun c =>
    match s.copied t.out p with
    | some _ => skipCtu w h (min 16 (bits c))
    | none => plainCtu w h 1 (min (bareMost p.ctu32) (bits c)))

/-- A coding unit as numbers, for the standard's entropy coding. -/
def unitElement (u : CodingUnit) : List Nat :=
  [u.x, u.y, u.w, u.h] ++ (match u.pred with
    | .skip m => [0, m]
    | .intra _ m => [1, m]
    | .inter _ _ => [2])

/-- The longest start of a slice's data that leaves its NAL unit under 1 KiB (R315). -/
def State.underKib (s : State) (o k : Nat) (p : CodedPic) : List Byte → List Byte
  | [] => []
  | b :: l =>
    let rest := (List.range (l.length + 2)).reverse.find? (fun n =>
      decide (s.sliceBits o k p ((b :: l).take n) < 8192))
    (b :: l).take (rest.getD 0)

/-- The data of a floor synthesis (R313, R315): what the codec's entropy coding makes of its CTUs, whose bits within their bounds are free. -/
def floorData (t : Task) (p : CodedPic) (s : State) : List Byte × State :=
  let (w, u) := s.freeWord
  let ctus := s.floorCtus t p (fun c => w.toNat / (c + 1) % 49)
  let n := ceilDiv ((ctus.map codeBits).foldl (· + ·) 0) 8
  let data := (List.range n).map (Config.sliceData (s.hevc t.out) (ctus.map (fun c => (c.units.map unitElement).flatten)))
  (s.underKib t.out t.stripe p data, u)

/-- FLOOR_SYNTH_DONE (R313 to R315, R325): the slice and reconstruction of the synthesis are final; its CTUs count at T7. -/
def execFloorSynthDone (path : Fin 16) (s : State) : Out :=
  finish s <|
    let n := path.val
    match s.floors.find? (fun e => e.1 = n) with
    | none => s
    | some (_, f) =>
      match s.task f.task with
      | none => s
      | some t =>
        if s.inService = false then s
        else
          let (bytes, u) := match s.picOf t.out t.ann.grid with
            | some p => floorData t p s
            | none => ([], s)
          let u := { u with floors := u.floors.erase n }
          let u := (u.setFld (EAU.STAT_FLOOR_BUSY n) 0).satFld (EAU.FLOOR_FLOOR_RUNS n) (1 + f.repeats)
          let recon := match s.picOf t.out t.ann.grid with
            | some p => some (s.floorRecon t.out t.stripe p)
            | none => none
          let u := u.onSelStats t.ann.slot t.ann.grid t.out (fun x => { x with
            treads := Store.put x.treads 0 7 (Store.at x.treads 0 7 + s.outCtus t.out t.ann.ctu32) })
          let u := stripeFinal f.task t bytes (s.floorSuspects t) (List.replicate 8 7) recon u
          settle (freeTags (encDone t u))

/-! ### Pooled groups (R306 to R308) -/

/-- The running members of group g, by output number. -/
def State.members (s : State) (g : Nat) : List Nat :=
  (List.range 128).filter (fun o => s.outRuns o && s.fld (STC.OUT_POOLED (o / 16) (o % 16)) = 1
    && s.fld (STC.OUT_POOL (o / 16) (o % 16)) = g)

/-- The sum of the running members' floors, kb/s. -/
def State.floorSum (s : State) (g : Nat) : Nat := ((s.members g).map s.floorKbps).foldl (· + ·) 0

/-- DSP.POOL_STATg follows the members. -/
def showPools (s : State) : State :=
  (List.range 8).foldl (fun t g =>
    (t.setFld (DSP.POOL_STAT_MEMBERS g) (s.members g).length).setFld (DSP.POOL_STAT_FLOOR_SUM_KBPS g) (s.floorSum g)) s

/-- One round of R307: shares over their caps are clipped and the excess goes to the others by weight. -/
def poolRound (l : List (Rat × Rat × Rat)) : List (Rat × Rat × Rat) :=
  let excess := (l.map (fun e => max 0 (e.1 - e.2.1))).foldl (fun (a b : Rat) => a + b) 0
  let clipped := l.map (fun e => (min e.1 e.2.1, e.2.1, e.2.2))
  let open' := (clipped.filter (fun e => e.1 < e.2.1)).map (fun e => e.2.2)
  let sum := open'.foldl (fun (a b : Rat) => a + b) 0
  if sum = 0 then clipped
  else clipped.map (fun e => if e.1 < e.2.1 then (e.1 + excess * e.2.2 / sum, e.2.1, e.2.2) else e)

/-- `n` rounds. -/
def poolRounds : Nat → List (Rat × Rat × Rat) → List (Rat × Rat × Rat)
  | 0, l => l
  | n + 1, l => poolRounds n (poolRound l)

/-- A member's weight: the modelled bits of its previous picture's summaries (R307). -/
def State.poolWeight (s : State) (o : Nat) : Nat :=
  match (s.out o).pics.head? with
  | none => 0
  | some p =>
    ((List.range (stripesOf (s.lines (outSlot o)) p.ctu32)).map (fun j =>
      s.modelOf o (s.summaryAt (outSlot o) (s.outSub o) p.number j))).foldl
        (· + ·) 0

/-- Whether the counter has reached a grid point of a rate in this cycle (R13). -/
def State.atGridPoint (s : State) (rate : Nat) : Bool :=
  decide (gridAt rate (gridFrom rate (s.ctr + 1 - s.fld PTP.INCR_INCR)) ≤ s.ctr)

/-- POOL_PERIOD (R307, R308): at a grid point of the members' rate the period's bits are shared. -/
def execPoolPeriod (group : Fin 8) (s : State) : Out :=
  finish s <|
    let g := group.val
    let ms := s.members g
    match ms with
    | [] => s
    | m :: _ =>
      if s.inService = false ∨ s.fld (DSP.POOL_EN g) = 0 ∨ s.atGridPoint (s.rate (outSlot m)) = false then s
      else
        let t := pictureSeconds (s.rate (outSlot m))
        let floors := ms.map (fun o => (s.floorKbps o : Rat) * 1000 * t)
        let weights := ms.map (fun o => (s.poolWeight o : Rat))
        let sumW := weights.foldl (fun (a b : Rat) => a + b) 0
        let spare := (s.fld (DSP.POOL_RATE_KBPS g) : Rat) * 1000 * t - floors.foldl (fun (a b : Rat) => a + b) 0
        let start := (ms.zip (floors.zip weights)).map (fun e =>
          ((if sumW = 0 then e.2.1 else e.2.1 + spare * e.2.2 / sumW), (s.drain e.1 : Rat) * t, e.2.2))
        let shares := poolRounds 16 start
        (ms.zip shares).foldl (fun u e =>
          u.onOut e.1 (fun r => { r with share := some (min e.2.1 e.2.2.1).floor.toNat })) s

/-! ### Rate tables and picture boundaries (R309 to R311, R343) -/

/-- Whether one of control cores 1 to 3 runs (R466). -/
def State.backCoresRun (s : State) : Bool :=
  let e := s.fld KPR.WDOG_STAT_EXPIRED
  !(bitAt e 1 && bitAt e 2 && bitAt e 3)

/-- A picture boundary and the slot's rate tables (R309, R311): a rebuild still BUSY makes the picture stale; otherwise one
starts. -/
def tableBoundary (slot grid : Nat) (s : State) : State :=
  if s.fld (STC.TABLES_BUSY slot) = 1 ∨ s.backCoresRun = false then
    let run := s.fld (STC.TABLES_STALE_RUN slot)
    let t := s.satFld (STC.TABLES_STALES slot)
    let t := t.setFld (STC.TABLES_STALE_RUN slot) (min 15 (run + 1))
    let t := t.onStats slot grid (fun x => { x with stale := orBit x.stale 0 })
    if run + 1 = 4 then t.raise (Pg.stc slot) 0 else t
  else s.setFld (STC.TABLES_BUSY slot) 1

/-- REBUILD_DONE (R309, R310): the shadow set, a new one whose words the firmware chose, is complete and PENDING. -/
def execRebuildDone (slot : Fin 8) (s : State) : Out :=
  finish s <|
    let n := slot.val
    if s.inService ∧ s.stopped 29 = false ∧ s.fld (STC.TABLES_BUSY n) = 1 ∧ s.backCoresRun then
      let t := { s with free := s.free + 1, rates := Store.put s.rates {} (rateKey n 1) { set := s.free + 1 } }
      (t.setFld (STC.TABLES_BUSY n) 0).setFld (STC.TABLES_PENDING n) 1
    else s

end Sys2Proof.Machine
end

