-- ==== Sys2Proof/Machine/Integrity.lean ====
section
/-!
DEFINITION. Machine/Integrity.lean: residue mismatches, replays, lockstep faults, budget breaches and retirement (spec 14 R347 to R354,
R364; 13 R339), with the residues that reveal them (R344 to R346).
-/
namespace Sys2Proof.Machine

/-! ### Residues modulo 7 (R344 to R346) -/

/-- The residue of an integer (R344). -/
def residueOf (x : Int) : Nat := (x % 7).toNat

/-- The code that a value carries beside it. -/
def residueCode (x : Int) : BitVec 3 := BitVec.ofNat 3 (residueOf x)

/-- u(s): the residue of 2^s (R345). -/
def shiftResidue (s : Nat) : Nat := nth [1, 2, 4] (s % 3) 1

/-- v(s): the inverse of u(s) modulo 7 (R345). -/
def unshiftResidue (s : Nat) : Nat := nth [1, 4, 2] (s % 3) 1

/-- A right shift's residue: that of the value less that of the dropped bits, times v(s). -/
def shrResidue (a s dropped : Nat) : Nat := (a + 7 - dropped % 7) * unshiftResidue s % 7

/-- The propagated residue of an operation from its operands' (R345); the code 7 is never valid (R344). -/
def propagatedResidue : CheckedOp → Option Nat
  | .add a b => if a = 7 ∨ b = 7 then none else some ((a.toNat + b.toNat) % 7)
  | .sub a b => if a = 7 ∨ b = 7 then none else some ((a.toNat + 7 - b.toNat) % 7)
  | .mul a b => if a = 7 ∨ b = 7 then none else some (a.toNat * b.toNat % 7)
  | .neg a => if a = 7 then none else some ((7 - a.toNat) % 7)
  | .shl a s => if a = 7 then none else some (a.toNat * shiftResidue s % 7)
  | .shr a s f => if a = 7 then none else some (shrResidue a.toNat s f)
  | .roundShr a s f => if a = 7 then none else some (shrResidue ((a.toNat + shiftResidue (s - 1)) % 7) s f)
  | .clip a => if a = 7 then none else some a.toNat
  | .abs a n => if a = 7 then none else some (if n then (7 - a.toNat) % 7 else a.toNat)

/-- What a checker reports of an operation and the value that came out (R344, R346): a mismatch, unless the value's residue is the propagated
one. -/
def residueMismatch (op : CheckedOp) (value : Int) : Bool := propagatedResidue op ≠ some (residueOf value)

/-! ### Fault records of bays (R349, R351) -/

/-- The task a bay works on as RESIDUE_LAST names it: slot, substream, stripe and proxy, with its picture number. -/
structure FaultPlace where
  slot    : Nat
  sub     : Nat
  stripe  : Nat
  proxy   : Bool
  picture : Nat
deriving DecidableEq, Repr

/-- Where a task codes. -/
def placeOf (s : State) (t : Task) : FaultPlace := ⟨outSlot t.out, s.outSub t.out, t.stripe, isProxy t.out, t.ann.picture⟩

/-- The current or last task of a bay, as BAYn.STAT and TASK_PIC hold it. -/
def bayPlace (n : Nat) (s : State) : FaultPlace :=
  ⟨s.fld (BAY.STAT_SLOT n), s.fld (BAY.STAT_SUBSTREAM n), s.fld (BAY.STAT_STRIPE n), decide (s.fld (BAY.STAT_PROXY n) = 1),
    s.fld (BAY.TASK_PIC_PICTURE n)⟩

/-- RESIDUE_FAULT of bay `n` (R349, R351): raised, recorded in RESIDUE_LAST and in a fault record. -/
def residueFault (n stage outcome ctu : Nat) (p : FaultPlace) (s : State) : State :=
  let t := s.setReg (Pg.bay n + 0x78) 0
  let t := (t.setFld (BAY.RESIDUE_LAST_STAGE n) stage).setFld (BAY.RESIDUE_LAST_OUTCOME n) outcome
  let t := (t.setFld (BAY.RESIDUE_LAST_CTU n) ctu).setFld (BAY.RESIDUE_LAST_STRIPE n) p.stripe
  let t := (t.setFld (BAY.RESIDUE_LAST_SLOT n) p.slot).setFld (BAY.RESIDUE_LAST_SUBSTREAM n) p.sub
  let t := t.setFld (BAY.RESIDUE_LAST_PROXY n) (b2n p.proxy)
  let t := t.record 0x20 4 (t.reg (Pg.bay n + 0x78)).toNat (p.picture * 16 + n)
  t.raise (Pg.bay n) 0

/-- The bay's run is lost unless its stripe completes in this cycle (R353). -/
def loseRun (n : Nat) (s : State) : State :=
  match s.bayRun n with
  | some r => s.setBay n { r with lost := true, replay := none }
  | none => s

/-- The count of a fault, and the engine loss of the stripe in progress when the bay retires by it or abandons the stripe (R353). A completion in
the cycle of the retirement prevails, so that loss waits for the cycle's end. -/
def afterFault (n : Nat) (abandon : Bool) (s : State) : State :=
  let r := countFault n s
  if r.2 then loseRun n r.1 else if abandon then engineLoss n r.1 else r.1

/-! ### MZE engines (R339, R354) -/

/-- STATE of an engine without a task: RETIRED, FROZEN, DISABLED or IDLE. MZE engines are Concourse masters 16 to 23 (R127). -/
def mzeState (n : Nat) (s : State) : Nat :=
  if s.fld (MZE.STAT_STATE n) = 4 then 4 else if s.frozen (16 + n) then 2
  else if s.fld (PG_CTRL_ENABLE (Pg.mze n)) = 0 then 3 else 0

/-- An engine falls idle. -/
def mzeIdle (n : Nat) (s : State) : State := s.setFld (MZE.STAT_STATE n) (mzeState n s)

/-- STATE follows a freeze, thaw or ENABLE of an engine: while it codes it stays CODING unless it is frozen (R339). -/
def showMze (n : Nat) (s : State) : State :=
  if (s.runningOn .mze n).isSome ∧ s.frozen (16 + n) = false then s else mzeIdle n s

/-- An engine abandons its task (R339): before its limit the task returns to its slot at level 0, else it waits there at level 1. -/
def mzeAbandon (n : Nat) (s : State) : State :=
  match s.runningOn .mze n with
  | none => mzeIdle n s
  | some (i, t) =>
    let spent := match t.st with
      | .running _ since => s.engSince since
      | _ => 0
    mzeIdle n (enterLevel i (if s.cyc < s.limitOf t then 0 else 1) (s.count 6 1 n spent))

/-- The losses that waited for the end of the cycle (R353, R354). -/
def endCycle (s : State) : State :=
  let bays := (s.bays.filter (fun e => e.2.lost)).map Prod.fst
  let engines := (s.mzeLog.filter (fun e => e.2.lost)).map Prod.fst
  let t := bays.foldl (fun u n => engineLoss n u) s
  engines.foldl (fun u n =>
    settle (mzeAbandon n { u with mzeLog := Store.put u.mzeLog {} n { Store.at u.mzeLog {} n with lost := false } })) t

/-- A fault in an engine (R354): FAULT raised, FAULT_LAST and a fault record written, counted; the third within 10 s retires the
engine; its task is handled under R339, after a retirement at the end of the cycle, in which the task may still complete (R353). -/
def mzeFault (n stage : Nat) (s : State) : State :=
  let t := (s.setReg (Pg.mze n + 0x68) 0).setFld (MZE.FAULT_LAST_STAGE n) stage
  let t := (t.setFld (MZE.FAULT_LAST_SLOT n) (s.fld (MZE.STAT_SLOT n))).setFld (MZE.FAULT_LAST_SUBSTREAM n) (s.fld (MZE.STAT_SUBSTREAM n))
  let t := t.setFld (MZE.FAULT_LAST_STRIPE n) (s.fld (MZE.STAT_STRIPE n))
  let t := t.record 0x23 4 (t.reg (Pg.mze n + 0x68)).toNat (s.fld (MZE.TASK_PIC_PICTURE n) * 16 + n)
  let t := (t.raise (Pg.mze n) 0).satFld (MZE.FAULT_FAULTS n)
  let e := Store.at s.mzeLog {} n
  let log := (s.cyc :: e.faults).take 3
  let t := { t with mzeLog := Store.put t.mzeLog {} n { e with faults := log } }
  let t := t.setFld (MZE.FAULT_RECENT n) (log.filter (fun f => decide (s.cyc < f + tenSeconds))).length
  let third : Bool := match log with
    | [_, _, f] => decide (s.cyc ≤ f + tenSeconds)
    | _ => false
  if third ∧ s.fld (MZE.STAT_STATE n) ≠ 4 then
    let t := (t.setFld (MZE.STAT_STATE n) 4).record 0x24 4 0 n
    let t := if (t.runningOn .mze n).isSome then
        { t with mzeLog := Store.put t.mzeLog {} n { Store.at t.mzeLog {} n with lost := true } }
      else t
    if t.ready = .ready then { t with ready := .degraded } else t
  else settle (mzeAbandon n t)

/-- Whether an MZE engine runs a task, or completed one in this cycle (R354). -/
def State.mzeWorks (s : State) (n : Nat) : Bool :=
  (s.runningOn .mze n).isSome || decide ((Store.at s.mzeLog {} n).doneAt = some s.cyc)

/-! ### The commands -/

/-- RESIDUE_MISMATCH (R346, R347, R349, R354, R237): a checker finds the value of a checked operation at odds with the propagated residue. A bay
marks the CTU suspect and replays it; an MZE engine has no replay; a PAF pass is faulted. -/
def execResidueMismatch (report : CheckReport) (s : State) : Out :=
  finish s <|
    if s.inService = false ∨ residueMismatch report.op report.value = false then s
    else match report.unit with
    | .bay n ctu stage =>
      (match s.bayRun n.val with
      | none => s
      | some r =>
        if 9 ≤ stage.val ∨ r.replay.isSome ∨ r.landings = 0 then s
        else s.setBay n.val { r with suspects := addBit r.suspects ctu, replay := some (ctu, stage.val), replayAt := s.cyc })
    | .mze n stage => if 2 ≤ stage.val ∨ s.mzeWorks n.val = false then s else mzeFault n.val stage.val s
    | .paf slot sub stripe =>
      { s with passes := s.passes.map (fun x =>
          if x.start.isSome ∧ x.ann.slot = slot.val ∧ x.ann.sub = sub.val ∧ x.ann.stripe = stripe then { x with bad := true } else x) }

/-- OUTCOME of a replay (R349): 1 RESIDUE_CHANNEL when the values are equal, 0 TRANSIENT, 2 HARD. -/
def replayOutcome (again equal : Bool) : Nat := if equal then 1 else if again then 2 else 0

/-- Whether a replay keeps its bound (R350): 2,048 ENG_CLK cycles, 512 for a 32 x 32 CTU, after the hold of a landing in its cycle. -/
def State.replayInTime (s : State) (r : BayRun) (t : Task) : Bool :=
  decide (s.engSince r.replayAt ≤ (if t.ann.ctu32 then 512 else 2048) + 24 * b2n r.held)

/-- REPLAY_DONE (R349, R350): within its bound, the outcome is raised, recorded and counted; only HARD leaves the CTU suspect and abandons the
stripe. -/
def execReplayDone (bay : Fin 16) (again : Bool) (equal : Bool) (s : State) : Out :=
  finish s <|
    let n := bay.val
    match s.bayRun n with
    | none => s
    | some r =>
      match r.replay with
      | none => s
      | some (ctu, stage) =>
        match s.task r.task with
        | none => s
        | some t =>
          if s.inService = false ∨ s.replayInTime r t = false then s
          else
            let o := replayOutcome again equal
            let hard := decide (o = 2)
            let u := s.setBay n { r with
              replay := none, held := false, extra := r.extra + (if t.ann.ctu32 then 512 else 2048)
              suspects := if hard then r.suspects else r.suspects.filter (fun c => c ≠ ctu) }
            let u := if hard then u.onCoded t.out t.ann.grid (fun q => { q with suspects := (t.stripe, ctu) :: q.suspects }) else u
            let u := u.onSelStats t.ann.slot t.ann.grid t.out (fun x => { x with residue := x.residue + 1 })
            afterFault n hard (residueFault n stage o ctu (placeOf s t) u)

/-- BUDGET_BREACH (R288, R350): a CTU exceeds its tread's budget outside a replay; counted, and the stripe is an engine loss. In the cycle in which
the bay completed its stripe the breach still counts (R353). -/
def execBudgetBreach (bay : Fin 16) (ctu : Nat) (s : State) : Out :=
  finish s <|
    let n := bay.val
    let _ := ctu
    let waits : Bool := match s.bayRun n with
      | some r => r.replay.isSome
      | none => decide ((Store.at s.bayLog {} n).doneAt ≠ some s.cyc)
    if s.inService = false ∨ waits then s
    else
        let u := s.record 0x21 4 (s.reg (Pg.bay n + 0x40)).toNat (s.fld (BAY.TASK_PIC_PICTURE n) * 16 + n)
        afterFault n true (u.raise (Pg.bay n) 1)

/-- A residue or lockstep outcome counts in the statistics of the picture it fell in (R455). -/
def noteLockstep (t : Task) (s : State) : State :=
  s.onSelStats t.ann.slot t.ann.grid t.out (fun x => { x with residue := x.residue + 1 })

/-- The bound of R315 for one synthesis in TIME_CLK cycles, scaled by width and stripe height. -/
def State.floorBound (s : State) (t : Task) : Rat := (16000 : Rat) * (s.outWidth t.out : Rat) / 7680 / (if t.ann.ctu32 then 2 else 1)

/-- Whether a synthesis can still end by its deadline plus 0.4 P after a fault in CTU `ctu` (R351): the CTUs from there on at the rate of
the bound, and 1.5 µs for the repeat. -/
def State.floorInTime (s : State) (t : Task) (ctu : Nat) : Bool :=
  let n := s.outCtus t.out t.ann.ctu32
  decide ((s.cyc : Rat) + s.floorBound t * ((n - ctu : Nat) : Rat) / (n : Rat) + 600
    ≤ (t.dead : Rat) + 2 * (s.periodCycles t.out t.ann.ctu32 : Rat) / 5)

/-- A lockstep fault in the floor path beside bay `n` (R351): the CTU is coded again; when the synthesis could no longer end in time, a
FLOOR_FAIL record, FATAL, and HALTED. -/
def floorFault (n ctu : Nat) (f : FloorRun) (t : Task) (s : State) : State :=
  let p := placeOf s t
  let u := { s with floors := (s.floors.erase n).insert n { f with repeats := f.repeats + 1 } }
  let u := u.satFld (EAU.FLOOR_FLOOR_REPEATS n)
  let u := afterFault n false (residueFault n 9 3 ctu p (noteLockstep t u))
  if s.floorInTime t ctu then u
  else
    let u := u.record 0x42 7 (u.reg (Pg.bay n + 0x78)).toNat (p.picture * 16 + n)
    halt (u.raise Pg.kpr 6)

/-- LOCKSTEP_FAULT (R348, R351, R354): a bay abandons its stripe, an assembly task starts again on its unit, a floor path repeats a CTU,
an MZE engine is handled under R339. RESIDUE_LAST.CTU of an assembly task is not stated: a free value. -/
def execLockstepFault (unit : LockUnit) (s : State) : Out :=
  finish s <|
    if s.inService = false then s
    else match unit with
    | .bay n ctu =>
      let u := match s.bayRun n.val with
        | none => s
        | some r => (match s.task r.task with
          | none => s
          | some t => noteLockstep t s)
      afterFault n.val true (residueFault n.val 9 3 ctu (bayPlace n.val s) u)
    | .eau n =>
      (match s.runningOn .assembly n.val with
      | none => s
      | some (i, t) =>
        let (w, u) := s.freeWord
        let u := noteLockstep t u
        let u := (u.setTask i { t with st := .running n.val s.cyc }).satFld (EAU.FLOOR_ASM_RERUNS n.val)
        afterFault n.val false (residueFault n.val 9 3 w.toNat (placeOf s t) u))
    | .floor n ctu =>
      (match s.floors.find? (fun e => e.1 = n.val) with
      | none => s
      | some (_, f) =>
        match s.task f.task with
        | none => s
        | some t => floorFault n.val ctu f t s)
    | .mze n => if s.mzeWorks n.val = false then s else mzeFault n.val 2 s

/-- FAULT_RECENT_EXPIRY (R353): counted faults leave the 10 s window. -/
def execFaultRecentExpiry (engine : PooledEngine) (s : State) : Out :=
  finish s <|
    match engine with
    | .bay n =>
      let e := Store.at s.bayLog {} n.val
      let log := e.faults.filter (fun f => decide (s.cyc < f + tenSeconds))
      { s with bayLog := Store.put s.bayLog {} n.val { e with faults := log } }.setFld (BAY.FAULT_RECENT n.val) log.length
    | .mze n =>
      let e := Store.at s.mzeLog {} n.val
      let log := e.faults.filter (fun f => decide (s.cyc < f + tenSeconds))
      { s with mzeLog := Store.put s.mzeLog {} n.val { e with faults := log } }.setFld (MZE.FAULT_RECENT n.val) log.length

end Sys2Proof.Machine
end

