-- ==== Sys2Proof/Machine/Packets.lean ====
section
/-!
DEFINITION. Machine/Packets.lean: RTP packets of the three carriages and the seal they carry (R335, R366 to R379).
-/
namespace Sys2Proof.Machine

/-! ### Output descriptors (R365, R366) -/

/-- MODE of an output's descriptor. -/
def State.mode (s : State) (o : Nat) : Nat := s.fld (ASM.OD0_MODE o)

/-- A 90 kHz count of an instant (R216, R369). -/
def ticks90k (t : Nat) : Nat := t * 90000 / Config.unitsPerSec

/-- An RTP header of 12 bytes, and the header extension that carries a seal (R379). -/
def rtpHeader (x m : Bool) (pt seq ts ssrc : Nat) : List Byte :=
  beBytes 1 (0x80 + 16 * b2n x) ++ beBytes 1 (128 * b2n m + pt % 128) ++ beBytes 2 seq ++ beBytes 4 ts ++ beBytes 4 ssrc

/-- The seal's header extension (R379). -/
def sealExtension (ext : Nat) (b : List Byte) : List Byte := beBytes 2 ext ++ beBytes 2 8 ++ b

/-! ### NAL units (R264, R367, R369) -/

/-- The NAL units of a byte stream whose units each follow four bytes 0, 0, 0, 1 (R367). `cur` is the unit being read, reversed. -/
def splitNals : List Byte → Option (List Byte) → List (List Byte)
  | [], none => []
  | [], some cur => [cur.reverse]
  | a :: b :: c :: d :: l, cur =>
    if a = 0 ∧ b = 0 ∧ c = 0 ∧ d = 1 then
      match cur with
      | none => splitNals l (some [])
      | some x => x.reverse :: splitNals l (some [])
    else splitNals (b :: c :: d :: l) (cur.map (fun x => a :: x))
  | a :: l, cur => splitNals l (cur.map (fun x => a :: x))

/-- Bytes cut into pieces of at most `n`. -/
def chunks (n : Nat) : Nat → List Byte → List (List Byte)
  | 0, _ => []
  | fuel + 1, l => if l.length ≤ n then [l] else l.take n :: chunks n fuel (l.drop n)

/-- The fragmentation unit headers of a NAL unit: two payload header bytes and the unit's type (RFC 7798, RFC 9328, named by
R366). -/
def fuHeader (hevc : Bool) (h0 h1 : Nat) : List Byte × Nat :=
  if hevc then (beBytes 1 (h0 / 128 * 128 + 49 * 2 + h0 % 2) ++ beBytes 1 h1, h0 / 2 % 64)
  else (beBytes 1 h0 ++ beBytes 1 (29 * 8 + h1 % 8), h1 / 8 % 32)

/-- The payloads of one NAL unit: a single packet, or fragments of at most `m` bytes (R369). `lastNal` marks the picture's last
unit (the P bit of RFC 9328). -/
def nalPayloads (hevc : Bool) (m : Nat) (lastNal : Bool) (nal : List Byte) : List (List Byte) :=
  if nal.length ≤ m then [nal]
  else
    let h := fuHeader hevc (leNat (nal.take 1)) (leNat ((nal.drop 1).take 1))
    let body := nal.drop 2
    let pieces := chunks (m - 3) body.length body
    (pieces.zipIdx).map (fun e =>
      let last := e.2 + 1 = pieces.length
      h.1 ++ beBytes 1 (128 * b2n (e.2 = 0) + 64 * b2n last + (if hevc then h.2 else 32 * b2n (last && lastNal) + h.2)) ++ e.1)

/-- The payloads of a stripe's byte stream under MODE 1. -/
def rtpPayloads (hevc : Bool) (m : Nat) (lastStripe : Bool) (code : List Byte) : List (List Byte) :=
  let nals := splitNals code none
  ((nals.zipIdx).map (fun e => nalPayloads hevc m (lastStripe && decide (e.2 + 1 = nals.length)) e.1)).flatten

/-! ### Transport stream (R370 to R373, R379) -/

/-- One TS packet: its PID, whether a payload unit starts in it, its adaptation field bytes (without the length byte) and its
payload. -/
structure TsPacket where
  pid  : Nat
  pusi : Bool
  adapt : Option (List Byte)
  body : List Byte
deriving DecidableEq, Repr

/-- The 188 bytes of a TS packet; the adaptation field is stuffed so that the packet is full (R371). -/
def tsBytes (cc : Nat) (p : TsPacket) : List Byte :=
  let room := 184 - p.body.length
  let adapt : List Byte := match p.adapt with
    | none => if room = 0 then [] else if room = 1 then beBytes 1 0 else beBytes 1 (room - 1) ++ beBytes 1 0 ++ List.replicate (room - 2) 0xFF
    | some a => beBytes 1 (room - 1) ++ a ++ List.replicate (room - 1 - a.length) 0xFF
  beBytes 1 0x47 ++ beBytes 2 (16384 * b2n p.pusi + p.pid % 8192)
    ++ beBytes 1 ((if adapt = [] then 16 else 48) + cc % 16) ++ adapt ++ p.body

/-- Bytes spread over TS packets; the first carries `first` as its adaptation field. -/
def tsSplit (pid : Nat) (start : Bool) (first : Option (List Byte)) : Nat → List Byte → List TsPacket
  | 0, _ => []
  | fuel + 1, l =>
    if l = [] then []
    else
      let room := match first with
        | none => 184
        | some a => 183 - a.length
      { pid := pid, pusi := start, adapt := first, body := l.take room } :: tsSplit pid false none fuel (l.drop room)

/-- A PSI section in one TS packet: pointer field, section, CRC, 0xFF stuffing. -/
def psiPacket (pid : Nat) (body : List Byte) : TsPacket :=
  let psi := body ++ beBytes 4 (crcMpeg body)
  let all := beBytes 1 0 ++ psi
  { pid := pid, pusi := true, adapt := none, body := all ++ List.replicate (184 - all.length) 0xFF }

/-- The PAT of a program (R370). -/
def patSection (program pmt : Nat) : List Byte :=
  beBytes 1 0 ++ beBytes 2 (0xB000 + 13) ++ beBytes 2 program ++ beBytes 1 0xC1 ++ beBytes 2 0 ++ beBytes 2 program
    ++ beBytes 2 (0xE000 + pmt)

/-- A stream of the PMT: its type, PID and, where it has one, the format identifier of its registration descriptor. -/
def pmtStream (type pid : Nat) (reg : Option Nat) : List Byte :=
  match reg with
  | none => beBytes 1 type ++ beBytes 2 (0xE000 + pid) ++ beBytes 2 0xF000
  | some r => beBytes 1 type ++ beBytes 2 (0xE000 + pid) ++ beBytes 2 0xF006 ++ beBytes 1 5 ++ beBytes 1 4 ++ beBytes 4 r

/-- The PMT of an output (R370). -/
def pmtSection (s : State) (o : Nat) : List Byte :=
  let anc := s.fld (ASM.OD2_ANC_PID o)
  let aud := s.fld (ASM.OD2_AUD_PID o)
  let streams := pmtStream (if s.hevc o then 0x24 else 0x33) (s.fld (ASM.OD1_VIDEO_PID o)) none
    ++ pmtStream 0x05 (s.fld (ASM.OD1_SEAL_PID o)) (some 0x4E564253)
    ++ (if anc = 0 then [] else pmtStream 0x06 anc (some 0x56414E43))
    ++ (if aud = 0 then [] else pmtStream 0x06 aud (some 0x42535344))
  beBytes 1 2 ++ beBytes 2 (0xB000 + 13 + streams.length) ++ beBytes 2 (s.fld (ASM.OD2_PROGRAM o)) ++ beBytes 1 0xC1
    ++ beBytes 2 0 ++ beBytes 2 (0xE000 + s.fld (ASM.OD1_VIDEO_PID o)) ++ beBytes 2 0xF000 ++ streams

/-- The five PTS bytes (R371). -/
def ptsBytes (p : Nat) : List Byte :=
  beBytes 1 (0x21 + p / 2 ^ 30 % 8 * 2) ++ beBytes 2 (p / 2 ^ 15 % 32768 * 2 + 1) ++ beBytes 2 (p % 32768 * 2 + 1)

/-- A PES header with a PTS: stream id and PES_packet_length (R371, R373). -/
def pesHeader (id length pts : Nat) : List Byte :=
  beBytes 3 1 ++ beBytes 1 id ++ beBytes 2 length ++ beBytes 1 0x84 ++ beBytes 1 0x80 ++ beBytes 1 5 ++ ptsBytes pts

/-- The adaptation field bytes of a PCR: flags, base, extension (R372). -/
def pcrField (launch : Nat) (disc : Bool) : List Byte :=
  let v := launch * 27000000 / Config.unitsPerSec % (2 ^ 33 * 300)
  beBytes 1 (0x10 + 128 * b2n disc) ++ beBytes 6 (v / 300 * 32768 + 0x7E00 + v % 300)

/-- PTS of a picture: floor((T + F + (D + W) P) x 90,000) mod 2^33 (R371). -/
def State.ptsOf (s : State) (o grid : Nat) (ctu32 : Bool) : Nat :=
  let w := bucketWindow (s.outDAs o ctu32) ctu32
  ticks90k (instantAt (s.rate (outSlot o)) (s.outLines o) (grid + 1) (2 * (s.outDAs o ctu32 + w) * ctuHeight ctu32)) % 2 ^ 33

/-- The TS packet that carries a seal (R379). -/
def sealSection (pid : Nat) (b : List Byte) : TsPacket :=
  let all := beBytes 1 0 ++ beBytes 1 0xF5 ++ beBytes 2 (0x7000 + 32) ++ b
  { pid := pid, pusi := true, adapt := none, body := all ++ List.replicate (184 - all.length) 0xFF }

/-- TS packets numbered by PID: the next continuity counter of each PID is kept (R370). -/
def numberTs : List TsPacket → Store Nat → List (List Byte) × Store Nat
  | [], m => ([], m)
  | p :: l, m =>
    let c := Store.at m 0 p.pid
    let r := numberTs l (Store.put m 0 p.pid ((c + 1) % 16))
    (tsBytes c p :: r.1, r.2)

/-- TS packets seven to a datagram; the last may hold fewer (R371). -/
def datagrams : Nat → List (List Byte) → List (List Byte)
  | 0, _ => []
  | fuel + 1, l => if l = [] then [] else (l.take 7).flatten :: datagrams fuel (l.drop 7)

/-! ### Seals (R374 to R378) -/

/-- The seal of a coded picture. -/
def pictureSeal (s : State) (o : Nat) (p : CodedPic) (flags : Nat) : List Byte :=
  sealBytes (s.fld (ASM.OD3_STREAM_ID o)) p.number p.alive flags (gridAt (s.rate (outSlot o)) p.grid) p.length p.crc

/-- The flags of a picture's seal when it is formed: its own causes, REGION_SUSPECT where CTUs are still suspect (R352), and STALE_TABLE where its
rate tables or, for the proxy, its conversion table were stale (R248, R311). -/
def State.sealFlags (s : State) (o : Nat) (p : CodedPic) : Nat :=
  let f := if p.suspects = [] then p.flags else orBit p.flags flagSuspect
  let st := (s.statsAt (outSlot o) p.grid).stale
  if bitAt st 0 ∨ (isProxy o ∧ bitAt st 2) then orBit f flagStale else f

/-! ### Queues (R388 to R393) -/

/-- A queue's packets, earliest first. -/
def State.queue (s : State) (q : Nat) : List Pkt := Store.at s.queues [] q

/-- A queue's packets replaced. -/
def State.setQueue (s : State) (q : Nat) (l : List Pkt) : State := { s with queues := Store.put s.queues [] q l }

/-- Packets enter a queue; one that will be held for more than 500 µs goes to the spill region (R393). -/
def enqueue (q : Nat) (l : List Pkt) (s : State) : State :=
  s.setQueue q (s.queue q ++ l.map (fun p => match p.launch with
    | some t => { p with spilled := decide (s.ctr + ns 500000 < t) }
    | none => p))

end Sys2Proof.Machine
end

