-- ==== Sys2Proof/Machine/Mezz.lean ====
section
/-!
DEFINITION. Machine/Mezz.lean: mezzanine bands from the engine to the queues, floor points and region maps (spec 13; R368, R374 to R379
for regions).
-/
namespace Sys2Proof.Machine

/-! ### Sizes (R331 to R334) -/

/-- Region rows of a mezzanine output. -/
def State.mzRows (s : State) (o : Nat) : Nat := s.fld (STC.MZOUT_ROWS (outSlot o) (s.outSub o))

/-- Region columns of a mezzanine output. -/
def State.mzCols (s : State) (o : Nat) : Nat := s.fld (STC.MZOUT_COLS (outSlot o) (s.outSub o))

/-- First line and line after the last of a region row. -/
def State.mzRowSpan (s : State) (o i : Nat) : Nat × Nat :=
  let h := s.mzHeight (outSlot o)
  (gridY h (s.mzRows o) i, gridY h (s.mzRows o) (i + 1))

/-- Width of region column `j`. -/
def State.mzColWidth (s : State) (o j : Nat) : Nat :=
  let w := s.mzWidth (outSlot o)
  gridX w (s.mzCols o) (j + 1) - gridX w (s.mzCols o) j

/-- Bytes of precinct data of a slice of `w` x `h` pixels (R333). -/
def sliceBudget (bpp w h : Nat) : Nat := bpp * w * h / 128

/-- Bytes of precinct data of slice `x` of the region in row `i`, column `j` (R333). -/
def State.precinctSize (s : State) (o i j x : Nat) : Nat :=
  let e := s.mzRowSpan o i
  sliceBudget (s.fld (STC.MZOUT_BPP_X16 (outSlot o) (s.outSub o))) (s.mzColWidth o j) (sliceLines (e.2 - e.1) x)

/-- Bytes of a slice with its header SLH (R334). -/
def State.sliceSize (s : State) (o i j x : Nat) : Nat := 6 + s.precinctSize o i j x

/-- SLH: the slice header with its index (R334; its six bytes PRESUMED ISO/IEC 21122-1: marker 0xFF20, length 4, index). -/
def sliceHeader (x : Nat) : List Byte := beBytes 2 0xFF20 ++ beBytes 2 4 ++ beBytes 2 x

/-- The parameters of the codestream of the region in row `i`, column `j` (R332). Ppih 0 stands for Main 4:2:2.10, 1 for High 4:4:4.12. -/
def State.regionElements (s : State) (o i j : Nat) : List (String × Int) :=
  let slot := outSlot o
  let e := s.mzRowSpan o i
  let deep := s.mz444 slot
  [("Ppih", b2n deep), ("Plev", Config.jxsLevel (s.mzColWidth o j) (e.2 - e.1) (s.rate slot) (s.fld (STC.MZOUT_BPP_X16 slot (s.outSub o)))),
    ("Wf", s.mzColWidth o j), ("Hf", ((e.2 - e.1 : Nat) : Int)), ("NLx", 5), ("NLy", 1), ("Cw", 0), ("Hsl", 16), ("Cpih", 0), ("Qpih", 0)]

/-- A marker segment of a codestream header: its marker, its length field and its parameters, by their names and values and the marker. -/
def markerSegment (marker length : Nat) (e : List (String × Int)) : List Byte :=
  beBytes 2 marker ++ beBytes 2 length ++ (List.range (length - 2)).map (Config.jxsByte (("marker", (marker : Int)) :: e))

/-- The header segment of a region, HDR_BYTES long: SOC, CAP, PIH, CDT and WGT in this order, and no COM (R334). The markers 0xFF10, 0xFF50,
0xFF12, 0xFF13 and 0xFF14 and the lengths of CAP, PIH and CDT are PRESUMED ISO/IEC 21122-1 (log entry 95); WGT takes the rest. -/
def State.headerSegment (s : State) (o i j : Nat) : List Byte :=
  let n := s.fld (STC.MZSTAT_HDR_BYTES (outSlot o) (s.outSub o))
  let e := s.regionElements o i j
  beBytes 2 0xFF10 ++ markerSegment 0xFF50 3 e ++ markerSegment 0xFF12 26 e ++ markerSegment 0xFF13 8 e ++ markerSegment 0xFF14 (n - 47) e

/-- The slices of the band of a task: (row, column, slice), region by region and within a region in order (R330, R367). -/
def State.bandSlices (s : State) (t : Task) : List (Nat × Nat × Nat) :=
  let l := s.slicesOf (outSlot t.out) (s.outSub t.out) t.stripe t.ann.ctu32
  ((List.range (s.mzRows t.out)).map (fun i =>
    let xs := (l.filter (fun e => e.1 = i)).map Prod.snd
    ((List.range (s.mzCols t.out)).map (fun j => xs.map (fun x => (i, j, x)))).flatten)).flatten

/-- Region number r = i x COLS + j (R331). -/
def State.regionOf (s : State) (o i j : Nat) : Nat := i * s.mzCols o + j

/-- The key of a region's record. -/
def regionKey (o r : Nat) : Nat := o * 1024 + r

/-- The key of the slice of a region that was last handed to EGS. -/
def sliceKey (o r x : Nat) : Nat := regionKey o r * 1024 + x

/-- Bytes cut in pieces of the given sizes. -/
def cutSizes : List Nat → List Byte → List (List Byte)
  | [], _ => []
  | n :: l, b => b.take n :: cutSizes l (b.drop n)

/-! ### Packets of a region (R335, R379) -/

/-- The four bytes of an RFC 9134 payload header: T = 1, K = 1, I = 0, L, the frame counter, the packetization unit's number and the
packet's number in it (R335). -/
def jxsHeader (l : Bool) (frame unit packet : Nat) : List Byte :=
  beBytes 4 (0xC0000000 + b2n l * 0x20000000 + frame % 32 * 0x400000 + unit % 2048 * 2048 + packet % 2048)

/-- One packet of a region before its RTP header: unit number, packet number, whether it ends its unit, codestream bytes, and the seal
of the region when it ends the codestream. -/
structure RegionPacket where
  unit   : Nat
  packet : Nat
  last   : Bool
  body   : List Byte
  endsAt : Option (List Byte)
deriving DecidableEq, Repr

/-- The packets of one slice: pieces of at most 1,400 bytes; EOC and the seal go with the last one when the slice ends the region. -/
def slicePackets (x : Nat) (b : List Byte) (close : Option (List Byte)) : List RegionPacket :=
  let pieces := chunks 1400 b.length b
  pieces.zipIdx.map (fun e =>
    let last := decide (e.2 + 1 = pieces.length)
    { unit := x, packet := e.2, last := last
      body := if last ∧ close.isSome then e.1 ++ beBytes 2 0xFF11 else e.1
      endsAt := if last then close else none })

/-- RTP packets of a region, numbered from its running sequence number. -/
def regionRtp (s : State) (o r frame ts launch : Nat) : Nat → List RegionPacket → List Pkt
  | _, [] => []
  | seq, p :: l =>
    let m := p.endsAt.isSome
    let ext := match p.endsAt with
      | some b => sealExtension (s.fld SEAL.CFG_EXT_ID) b
      | none => []
    { launch := some launch
      data := rtpHeader m m (s.fld (ASM.OD1_PT o)) seq ts ((s.fld (ASM.OD0_SSRC o) + r) % 2 ^ 32) ++ ext
        ++ jxsHeader p.last frame p.unit p.packet ++ p.body
      sealOf := p.endsAt.map (fun b => (o, r, b)) } :: regionRtp s o r frame ts launch ((seq + 1) % 65536) l

/-! ### Handing a band to EGS (R330, R336, R368, R374 to R378) -/

/-- Whether a concealed source line is one a region's coded lines draw on (R330, R225). -/
def State.regionConcealed (s : State) (o i : Nat) (conc : List Nat) : Bool :=
  let slot := outSlot o
  let e := s.mzRowSpan o i
  if s.mzHalf slot then
    conc.any (fun l => decide (2 * e.1 ≤ l + 2) && decide (l < 2 * e.2 + 2))
  else conc.any (fun l => decide (e.1 ≤ l) && decide (l < e.2))

/-- Whether a line of the copy that a concealed pass replaced is one of a region's (R237, R330). -/
def State.regionLost (s : State) (o i : Nat) (lost : List Nat) : Bool :=
  let e := s.mzRowSpan o i
  lost.any (fun l => decide (e.1 ≤ l) && decide (l < e.2))

/-- The flags of a region's seal (R376): its own causes, the picture's REPEAT and TIME_DISCONTINUITY, concealed lines, and a stale map
or copy table. -/
def State.regionFlags (s : State) (o i : Nat) (p : CodedPic) (run : RegionRun) : Nat :=
  let slot := outSlot o
  let st := (s.statsAt slot p.grid).stale
  let e := (s.pafSet slot p.grid).mezz
  let hit : Bool := match s.tagOf o p.grid with
    | some (_, g) => s.regionConcealed o i g.conc || s.regionLost o i g.lost || g.spoilt
    | none => false
  let f := b2n p.isRepeat + (if bitAt p.flags flagTime then 16 else 0)
  let f := if bitAt run.flags flagConcealed ∨ hit then orBit f flagConcealed else f
  let f := if bitAt run.flags flagFloored then orBit f flagFloored else f
  if bitAt st (3 + s.outSub o) ∨ (e.on ∧ bitAt st 1) then orBit f flagStale else f

/-- One region's part of a band handed to EGS: `l` are its slices in order. The header segment goes first where the band opens the
codestream; EOC and the seal end it where the band closes it. -/
def handRegion (t : Task) (p : CodedPic) (mark : Nat) (i j : Nat) (l : List (Nat × List Byte)) (s : State) : State :=
  let o := t.out
  let r := s.regionOf o i j
  let e := s.mzRowSpan o i
  let opens := l.any (fun x => x.1 = 0)
  let closes := l.any (fun x => x.1 + 1 = sliceCount (e.2 - e.1))
  let run0 := Store.at s.regions {} (regionKey o r)
  let hdr := if opens then s.headerSegment o i j else []
  let run := if opens then { run0 with length := 0, crc := crcInit 1, flags := 0 } else run0
  let bytes := hdr ++ (l.map Prod.snd).flatten ++ (if closes then beBytes 2 0xFF11 else [])
  let run := { run with length := run.length + bytes.length, crc := crcFeed 1 bytes run.crc, flags := run.flags ||| mark }
  let entry := nth p.map r 0
  let flags := s.regionFlags o i p run
  let close : Option (List Byte) := if closes then
      some (sealBytes (entry % 65536) p.number p.alive flags (gridAt (s.rate (outSlot o)) p.grid) run.length run.crc)
    else none
  let pkts := (if opens then [{ unit := 2047, packet := 0, last := true, body := hdr, endsAt := none }] else [])
    ++ (l.map (fun x => slicePackets x.1 x.2 (if x.1 + 1 = sliceCount (e.2 - e.1) then close else none))).flatten
  let sent := entry / 2 ^ 31 % 2 = 1
  let out := regionRtp s o r p.alive (ticks90k (gridAt (s.rate (outSlot o)) p.grid) % 2 ^ 32) t.launchAt run.seq pkts
  let run := if sent then { run with seq := (run.seq + pkts.length) % 65536 } else run
  let s := { s with
    regions := Store.put s.regions {} (regionKey o r) run
    slices := l.foldl (fun m x => Store.put m [] (sliceKey o r x.1) x.2) s.slices }
  if sent then enqueue (entry / 65536 % 8192) out s else s

/-- Whether a band is the last of its picture. -/
def State.lastBand (s : State) (t : Task) : Bool := t.stripe + 1 = s.outStripes t.out t.ann.ctu32

/-- The statistics block notes that an output's seal, or every region seal, of a picture was formed (R455). -/
def noteSealed (t : Task) (s : State) : State :=
  s.onStats (outSlot t.out) t.ann.grid (fun x => { x with sealed := addBit x.sealed t.out })

/-- A band handed to EGS: `choose` gives the bytes of each slice, `mark` the flags that every region it touches takes, `spoilt` the
(region, slice) pairs that were replaced because their source could not be trusted (R362). -/
def handBand (t : Task) (slices : List ((Nat × Nat × Nat) × List Byte)) (mark : Nat) (spoilt : List (Nat × Nat)) (s : State) : State :=
  match s.picOf t.out t.ann.grid with
  | none => s
  | some p =>
    let u := (List.range (s.mzRows t.out)).foldl (fun u i => (List.range (s.mzCols t.out)).foldl (fun u j =>
      let l := (slices.filter (fun e => e.1.1 = i ∧ e.1.2.1 = j)).map (fun e => (e.1.2.2, e.2))
      let r := s.regionOf t.out i j
      let m := if spoilt.any (fun e => e.1 = r) then orBit mark flagConcealed else mark
      if l = [] then u else handRegion t p m i j l u) u) s
    if s.lastBand t then noteSealed t u else u

/-- The slice of the previous picture's codestream with the same region and index; without one, an empty slice of that length, whose
bytes the codec standard gives: free values (R338). -/
def previousSlice (o i j x : Nat) (s : State) : List Byte × State :=
  match Store.at s.slices [] (sliceKey o (s.regionOf o i j) x) with
  | [] =>
    let (b, t) := s.freeBytes (s.precinctSize o i j x)
    (sliceHeader x ++ b, t)
  | b => (b, s)

/-- The previous picture's slices for a list of slices. -/
def previousSlices (o : Nat) : List (Nat × Nat × Nat) → State → List ((Nat × Nat × Nat) × List Byte) × State
  | [], s => ([], s)
  | e :: l, s =>
    let (b, t) := previousSlice o e.1 e.2.1 e.2.2 s
    let (r, u) := previousSlices o l t
    ((e, b) :: r, u)

/-- The floor point of a band: its launch less 2 µs (R338). -/
def Task.floorPoint (t : Task) : Nat := t.launch - usCyc 2

/-- Pixels that a MEZZ task codes: none for a repeat or a stalled stripe (R328, R329). -/
def State.taskPixels (s : State) (t : Task) : Nat :=
  if t.ann.repeat_ ∨ t.ann.stalled then 0 else s.mzPixels (outSlot t.out) (s.outSub t.out) t.stripe t.ann.ctu32

/-- MEZZ_TASK_DONE (R316, R319, R328, R330): an engine's task completes with the precinct data of the band's slices, region by region, within its
cycles; a repeat's or a stalled stripe's task codes nothing. Slices that miss the size of R333 are no completion. -/
def execMezzTaskDone (engine : Fin 8) (coded : Coded) (s : State) : Out :=
  finish s <|
    let n := engine.val
    match s.runningOn .mze n with
    | none => s
    | some (i, t) =>
      let copies := t.ann.repeat_ || t.ann.stalled
      let sizes := (s.bandSlices t).map (fun e => s.precinctSize t.out e.1 e.2.1 e.2.2)
      if s.inService = false ∨ mzBound (s.taskPixels t) < coded.cycles
          ∨ coded.bytes.length ≠ (if copies then 0 else sizes.foldl (· + ·) 0) then s
      else
        let left := if s.cyc ≤ t.floorPoint then (t.floorPoint - s.cyc) * s.engHz / 400000000 else 0
        let u := { s with mzeLog := Store.put s.mzeLog {} n { Store.at s.mzeLog {} n with doneAt := some s.cyc, lost := false } }
        let u := (u.setFld (MZE.LAST_MARGIN n) left).setFld (MZE.LAST_CYCLES n) coded.cycles
        let u := (u.wrapFld (MZE.COUNT_TASKS n)).count 6 1 n coded.cycles
        let u := u.setTask i { t with kind := .packet, st := .waiting, redisp := false, code := coded.bytes }
        settle (mzeIdle n (encDone t u))

/-- The slices that a completed MEZZ task hands over: coded, or the previous picture's for a repeat, a stalled stripe and slices whose
source could not be trusted (R329, R330, R362). -/
def bandOfTask (t : Task) (s : State) : List ((Nat × Nat × Nat) × List Byte) × State :=
  let band := s.bandSlices t
  if t.ann.repeat_ ∨ t.ann.stalled then previousSlices t.out band s
  else
    let cut := cutSizes (band.map (fun e => s.precinctSize t.out e.1 e.2.1 e.2.2)) t.code
    let cut := (band.zip cut).map (fun e => sliceHeader e.1.2.2 ++ e.2)
    (band.zip cut).foldl (fun (acc : List ((Nat × Nat × Nat) × List Byte) × State) e =>
      if (s.regionOf t.out e.1.1 e.1.2.1, e.1.2.2) ∈ t.spoilt then
        let (b, u) := previousSlice t.out e.1.1 e.1.2.1 e.1.2.2 acc.2
        (acc.1 ++ [(e.1, b)], u)
      else (acc.1 ++ [e], acc.2)) ([], s)

/-! ### Region maps (R342, R343) -/

/-- The key of an output's stored map: `which` 0 the active one, 1 the shadow. -/
def mapKey (slot k which : Nat) : Nat := 2 * (16 * slot + k) + which

/-- A write of MZMAP_CTRL.LOAD for output `k` (R342). -/
def mzmapLoad (slot k : Nat) (s : State) : State × Code :=
  if s.fld (STC.MZMAP_STAT_BUSY slot k) = 1 ∨ s.fld (STC.MZMAP_STAT_PENDING slot k) = 1 then (s, .busy)
  else
    let a := s.fld (STC.MZMAP_ADDR_ADDR slot)
    if a % 64 ≠ 0 then (s, .decodeError)
    else ({ s with loads := Store.put s.loads 0 (16 + 16 * slot + k) a }.setFld (STC.MZMAP_STAT_BUSY slot k) 1, .ok)

/-- A pending map becomes active (R343), at the boundary of the picture at a grid point, or at once on a stopped output: pictures before the
boundary keep the one it replaces. -/
def mapSwap (slot k : Nat) (grid : Option Nat) (s : State) : State :=
  let m := Store.at s.maps [] (mapKey slot k 1)
  let old := Store.at s.maps [] (mapKey slot k 0)
  let s := s.onOut (mezzanine slot k) (fun r => { r with mapsBefore := match grid with
    | some g => ((g, old) :: r.mapsBefore).take 8
    | none => [] })
  let t := { s with maps := Store.put (Store.put s.maps [] (mapKey slot k 0) m) [] (mapKey slot k 1) [] }
  let t := (t.wrapFld (STC.MZMAP_STAT_GEN slot k)).setFld (STC.MZMAP_STAT_PENDING slot k) 0
  t.setFld (STC.MZMAP_STAT_STALE_RUN slot k) 0

/-- Whether a list of numbers holds one twice. -/
def hasTwice : List Nat → Bool
  | [] => false
  | x :: l => decide (x ∈ l) || hasTwice l

/-- Whether the entries of a map may serve (R342): no enabled entry holds a reserved bit, no two name one queue. -/
def mapValid (entries : List Nat) : Bool :=
  let on := entries.filter (fun e => decide (e / 2 ^ 31 % 2 = 1))
  on.all (fun e => decide (e / 2 ^ 29 % 4 = 0)) && !hasTwice (on.map (fun e => e / 65536 % 8192))

/-- The 1,024 entries of a map in HBM (R342). -/
def mapEntries (s : State) (addr : Nat) : List Nat := (List.range 1024).map (fun i => leNat (s.hbmBytes (addr + 4 * i) 4))

/-- MZMAP_LOAD_DONE (R342, R343): the shadow is complete and pending, and active at once on a stopped output; a failed read or an
invalid entry aborts the load. Which CODE an invalid entry records is not stated: a free value. -/
def execMzmapLoadDone (slot : Fin 8) (out : Fin 16) (resp : Resp) (s : State) : Out :=
  finish s <|
    let n := slot.val
    let k := out.val
    if s.inService ∧ s.fld (STC.MZMAP_STAT_BUSY n k) = 1 then
      let t := s.setFld (STC.MZMAP_STAT_BUSY n k) 0
      let m := mapEntries s (Store.at s.loads 0 (16 + 16 * n + k))
      let used := m.take (s.fld (STC.MZOUT_COLS n k) * s.fld (STC.MZOUT_ROWS n k))
      if resp ≠ .okay then (t.setFld (STC.MZMAP_STAT_RESULT n k) (respCode resp).num).raise (Pg.stc n) 7
      else if mapValid used = false then
        let (w, t) := t.freeWord
        (t.setFld (STC.MZMAP_STAT_RESULT n k) (1 + w.toNat % 8)).raise (Pg.stc n) 7
      else
        let t := { t with maps := Store.put t.maps [] (mapKey n k 1) m }
        let t := (t.setFld (STC.MZMAP_STAT_RESULT n k) 0).setFld (STC.MZMAP_STAT_PENDING n k) 1
        if t.outRuns (mezzanine n k) then t else mapSwap n k none t
    else s

/-- A picture boundary and the map of output `k` (R343): a pending map swaps; a running output's picture whose boundary passes while a
load is BUSY is stale, and the fourth in a run raises STALE_MAP. -/
def mapBoundary (slot k grid : Nat) (s : State) : State :=
  if s.fld (STC.MZMAP_STAT_PENDING slot k) = 1 then mapSwap slot k (some grid) s
  else if s.fld (STC.MZMAP_STAT_BUSY slot k) = 1 ∧ s.outRuns (mezzanine slot k) then
    let t := s.onStats slot grid (fun x => { x with stale := orBit x.stale (3 + k) })
    let t := t.satFld (STC.MZCNT_STALE_MAPS slot k)
    let run := s.fld (STC.MZMAP_STAT_STALE_RUN slot k)
    let t := t.setFld (STC.MZMAP_STAT_STALE_RUN slot k) (min 15 (run + 1))
    if run + 1 = 4 then t.raise (Pg.stc slot) 6 else t
  else s

end Sys2Proof.Machine
end

