-- ==== Sys2Proof/Machine/Sound.lean ====
section
/-!
DEFINITION. Machine/Sound.lean: the sample timeline, the channel table and its rings, minimum delays, and the ST 302M PES packets of transport
streams (spec 18 R429 to R431, R444, R446).
-/
namespace Sys2Proof.Machine

/-- The audio sampling rate F_a (R429). -/
def State.audioHz (s : State) : Nat := if s.fld AUDC.CFG_RATE = 1 then 96000 else 48000

/-- The index of the latest sample instant at or before a counter value (R429). -/
def sampleIndex (hz ctr : Nat) : Nat := ctr * hz / Config.unitsPerSec

/-- The first counter value at or after sample instant `n`. -/
def sampleInstant (hz n : Nat) : Nat := ceilDiv (n * Config.unitsPerSec) hz

/-- AUD's record changed. -/
def State.onAudio (s : State) (f : Audio → Audio) : State := { s with audio := f s.audio }

/-! ### The channel table (R430) -/

/-- The channel entries that do not stand at reset. -/
def State.entriesSet (s : State) : List Nat :=
  s.regs.filterMap (fun e => if e.1 % 0x1000000 = 0xA05060 then some (e.1 / 0x1000000) else none)

/-- The entries whose source is of a kind, unit and sub-unit. -/
def State.entriesOf (s : State) (kind unit sub : Nat) : List Nat :=
  s.entriesSet.filter (fun i =>
    s.fld (AUDC.CH_SRC_KIND i) = kind && s.fld (AUDC.CH_SRC_UNIT i) = unit && (kind = 1 || s.fld (AUDC.CH_SRC_SUB i) = sub))

/-- Where a ring of 8,192 samples keeps sample `n` of an entry. -/
def ringKey (entry n : Nat) : Nat := entry * 8192 + n % 8192

/-- Sample `n` of an entry written to its ring. -/
def putSample (n v : Nat) (s : State) (entry : Nat) : State :=
  s.onAudio (fun a => { a with rings := Store.put a.rings (0, 0) (ringKey entry n) (n + 1, v % 2 ^ 24) })

/-- A source delivers sample `n` to every entry that names it. -/
def deliver (kind unit sub n v : Nat) (s : State) : State := (s.entriesOf kind unit sub).foldl (putSample n v) s

/-- Whether an entry's ring holds sample `n`. -/
def State.delivered (s : State) (entry n : Nat) : Bool :=
  decide ((Store.at s.audio.rings (0, 0) (ringKey entry n)).1 = n + 1)

/-- Whether an entry reads zero whatever its ring holds: silence, a TDM slot whose RX_MASK bit is 0, a stalled port (R436, R438). -/
def State.entrySilent (s : State) (entry : Nat) : Bool :=
  let kind := s.fld (AUDC.CH_SRC_KIND entry)
  let unit := s.fld (AUDC.CH_SRC_UNIT entry)
  if kind = 0 ∨ 256 ≤ entry then true
  else if kind = 2 then
    s.fld (TDM.STAT_STATE unit) = 2 || (match Store.at s.audio.ports none unit with
      | some r => !bitAt r.rxMask (s.fld (AUDC.CH_SRC_SUB entry))
      | none => false)
  else false

/-- One sample that its source has not delivered by the instant of use (R430): counted, and raised once per second. -/
def missSample (s : State) : State :=
  let t := s.satFld AUDC.MISSING_COUNT
  if t.audio.missed then t else (t.onAudio (fun a => { a with missed := true })).raise Pg.audc 2

/-- Whether sample `n` falls before the latest host step and within the longest delay of it, 8,000 samples (R431, R446). -/
def State.beforeStep (s : State) (n : Nat) : Bool :=
  match s.audio.stepN with
  | some k => decide (n < k ∧ k ≤ n + 8000)
  | none => false

/-- A sink reads sample `n` of an entry (R430). After a host step, samples from before it are missed without a count (R446). -/
def useSample (entry n : Nat) (s : State) : Nat × State :=
  if s.entrySilent entry then (0, s)
  else if s.delivered entry n then ((Store.at s.audio.rings (0, 0) (ringKey entry n)).2, s)
  else (0, if s.beforeStep n then s else missSample s)

/-- A sink reads a list of (entry, sample) pairs in order. -/
def useSamples : List (Nat × Nat) → State → List Nat × State
  | [], s => ([], s)
  | e :: l, s =>
    let (v, t) := useSample e.1 e.2 s
    let r := useSamples l t
    (v :: r.1, r.2)

/-! ### Minimum delays (R431) -/

/-- m of an entry's source, in samples. -/
def State.minDelay (s : State) (entry : Nat) : Nat :=
  let kind := s.fld (AUDC.CH_SRC_KIND entry)
  if kind = 1 then 25 else if kind = 2 then (if s.fld (TDM.CFG_CLOCK (s.fld (AUDC.CH_SRC_UNIT entry))) = 0 then 2 else 33) else 0

/-- Slots of a TDM frame (R434). -/
def State.tdmSlots (s : State) (port : Nat) : Nat := 2 ^ s.fld (TDM.CFG_SLOTS port)

/-- The entry that an output slot carries (TDMn.TXMAP). -/
def State.txEntry (s : State) (port slot : Nat) : Nat := s.fld (TDM.TXMAP_ENTRIES port (slot / 6)) / 2 ^ (8 * (slot % 6)) % 256

/-- The entries of a send flow. -/
def State.flowEntries (s : State) (f : Nat) : List Nat :=
  (List.range (s.fld (AUDC.TX_CFG_COUNT f))).map (fun i => s.fld (AUDC.TX_CFG_FIRST f) + i)

/-- R431 for one TDM output port. -/
def State.portDelayHolds (s : State) (port : Nat) : Bool :=
  (List.range (s.tdmSlots port)).all (fun i => !bitAt (s.fld (TDM.MASK_TX_MASK port)) i
    || decide (s.minDelay (s.txEntry port i) ≤ s.fld (TDM.CFG_PLAY port)))

/-- R431 for one send flow. -/
def State.flowDelayHolds (s : State) (f : Nat) : Bool :=
  let d := s.fld (AUDC.TX_TIME_DELAY f)
  decide (d ≤ 8000) && (s.flowEntries f).all (fun e => decide (s.minDelay e + s.fld (AUDC.TX_CFG_PTIME_SMP f) ≤ d + 1))

/-- R431 for every TDM output port and every running send flow. -/
def State.delaysHold (s : State) : Bool :=
  (List.range 4).all (fun p => s.portDelayHolds p) &&
    (List.range 32).all (fun f => s.fld (AUDC.TX_CFG_RUN f) = 0 || s.flowDelayHolds f)

/-! ### TDM ports that start (R435, R437, R479) -/

/-- A frame of samples that no source gave: what a slip buffer holds when a port starts is not stated. -/
def State.freeFrame (s : State) (slots i : Nat) : List Nat :=
  (List.range slots).map (fun j => (Config.freeWord (s.free + slots * i + j)).toNat % 2 ^ 24)

/-- STAT.STATE of a port that is not stalled (R439): a SLAVE_WCLK port holds over while the monitor is not QUALIFIED. -/
def State.portState (s : State) (n : Nat) : Nat := if s.fld (TDM.CFG_CLOCK n) = 2 ∧ s.fld AUDC.WCLK_STAT_STATE ≠ 2 then 3 else 1

/-- The running ports show whether they hold over. -/
def showPorts (s : State) : State :=
  (List.range 4).foldl (fun t n => if (Store.at t.audio.ports none n).isSome ∧ t.fld (TDM.STAT_STATE n) ≠ 2 then
    t.setFld (TDM.STAT_STATE n) (t.portState n) else t) s

/-- A port starts: RUNNING, no frame begun; in the slave modes both slip buffers are filled to 32 frames (R437, R438). -/
def startPort (n : Nat) (s : State) : State :=
  let slots := s.tdmSlots n
  let slave := decide (s.fld (TDM.CFG_CLOCK n) ≠ 0)
  let fill : List (List Nat) := if slave then (List.range 32).map (s.freeFrame slots) else []
  let out : List (List Nat) := if slave then (List.range 32).map (fun i => s.freeFrame slots (32 + i)) else []
  let t := { s with free := if slave then s.free + 64 * slots else s.free }
  let r : TdmRun := { startAt := s.cyc, input := fill, output := out }
  (t.onAudio (fun a => { a with ports := Store.put a.ports none n (some r) })).setFld (TDM.STAT_STATE n) (s.portState n)

/-- The ports that are enabled start with the service (R77, R109: ENABLE is 1 at reset). -/
def startPorts (s : State) : State :=
  (List.range 4).foldl (fun t n => if t.fld (PG_CTRL_ENABLE (Pg.tdm n)) = 1 then startPort n t else t) s

/-! ### ST 302M (R444) -/

/-- The first sample whose capture time is at or after grid point `k` of a rate. -/
def sampleFrom (rate hz k : Nat) : Nat :=
  let p := refPeriod rate
  ceilDiv (k * p.1 * hz) (p.2 * 1000000000000)

/-- Bits as bytes, most significant bit first. -/
def bitsToBytes : Nat → List Bool → List Byte
  | 0, _ => []
  | n + 1, l => BitVec.ofNat 8 ((l.take 8).foldl (fun a b => 2 * a + b2n b) 0) :: bitsToBytes n (l.drop 8)

/-- One AES3 subframe: 24 bits of the sample, least significant first, then V, U, C and F. -/
def subframe (v pos : Nat) (first : Bool) : List Bool :=
  (List.range 24).map (bitAt v) ++ [false, false, Config.channelStatus pos, first && decide (pos = 0)]

/-- A frame of sample pairs: 7 bytes for each pair. `pos` is the frame's place in the block of 192. -/
def framePairs (pos : Nat) : Nat → List Nat → List Byte
  | 0, _ => []
  | n + 1, l => bitsToBytes 7 (subframe (nth l 0 0) pos true ++ subframe (nth l 1 0) pos false) ++ framePairs pos n (l.drop 2)

/-- The frames of a PES packet's samples, `count` to a frame. -/
def soundFrames (count : Nat) : Nat → Nat → List Nat → List Byte
  | 0, _, _ => []
  | n + 1, pos, l => framePairs (pos % 192) (count / 2) l ++ soundFrames count n (pos + 1) (l.drop count)

/-- The TS packets of the ST 302M block that launches with stripe 0 of the picture at grid point `grid`: that of two pictures before (R444);
none where the output did not code that picture. -/
def soundPackets (o grid : Nat) (ctu32 : Bool) (s : State) : List TsPacket × State :=
  let pid := s.fld (ASM.OD2_AUD_PID o)
  if pid = 0 ∨ grid < 2 ∨ (s.picOf o (grid - 2)).isNone then ([], s)
  else
    let hz := s.audioHz
    let rate := s.rate (outSlot o)
    let lo := sampleFrom rate hz (grid - 2)
    let n := sampleFrom rate hz (grid - 1) - lo
    let count := 2 * s.fld (AUDC.TS_CFG_PAIRS o)
    let first := s.fld (AUDC.TS_CFG_FIRST o)
    let reads := ((List.range n).map (fun i => (List.range count).map (fun c => (first + c, lo + i)))).flatten
    let (vs, t) := useSamples reads s
    let pos := Store.at t.audio.frames 0 o
    let t := t.onAudio (fun a => { a with frames := Store.put a.frames 0 o ((pos + n) % 192) })
    let body := soundFrames count n pos vs
    let header := beBytes 4 (body.length * 65536 + (count / 2 - 1) * 16384 + 2 * 16)
    let w := bucketWindow (s.outDAs o ctu32) ctu32
    let at' : Rat := (lo : Rat) / (hz : Rat) + pictureSeconds rate + ((s.outDAs o ctu32 + w : Nat) : Rat) * s.stripeSeconds o ctu32
    let pts := (at' * 90000).floor.toNat % 2 ^ 33
    let all := pesHeader 0xBD (body.length + 12) pts ++ header ++ body
    (tsSplit pid true none all.length all, t)

end Sys2Proof.Machine
end

