-- ==== Sys2Proof/Machine/Assembly.lean ====
section
/-!
DEFINITION. Machine/Assembly.lean: the end of an assembly task and of a PACKET task (spec 15, R265, R316, R365 to R379).
-/
namespace Sys2Proof.Machine

/-- Bits of the NAL units of a stripe's byte stream, start codes left out (R300, R455). -/
def nalBits (code : List Byte) : Nat := ((splitNals code none).map (fun n => 8 * n.length)).foldl (· + ·) 0

/-- ASSEMBLY_DONE (R264, R265, R316, R367): the stripe's NAL units, with those ahead of the picture's first slice, enter egress packet memory
as a byte stream; the picture's running length and CRC take it. A task takes at most 256 + ceil(bytes / 32) ENG_CLK cycles. -/
def execAssemblyDone (unit : Fin 16) (cycles : Nat) (s : State) : Out :=
  finish s <|
    let n := unit.val
    match s.runningOn .assembly n with
    | none => s
    | some (i, t) =>
      let code := match s.picOf t.out t.ann.grid with
        | some p => s.stripeStream t.out t.stripe p t.code
        | none => []
      if s.inService = false ∨ t.kind ≠ .assemble ∨ 256 + ceilDiv code.length 32 < cycles then s
      else
        let bits := nalBits code
        let u := (s.wrapFld (EAU.COUNT_ASSEMBLIES n)).setFld (EAU.LAST_BYTES n) code.length
        let u := (u.setFld (EAU.LAST_CYCLES n) cycles).setFld (EAU.STAT_ASM_BUSY n) 0
        let u := u.setTask i { t with kind := .packet, st := .waiting, code := code }
        let u := u.onRate t (fun e => { e with size := some bits })
        let u := u.onCoded t.out t.ann.grid (fun p => { p with length := p.length + code.length, crc := crcFeed 1 code p.crc })
        let u := u.onSelStats t.ann.slot t.ann.grid t.out (fun x =>
          let e := Store.at x.stripes (0, 0) t.stripe
          { x with bits := x.bits + bits, stripes := Store.put x.stripes (0, 0) t.stripe (e.1, bits) })
        let u := u.onTag t.out t.ann.grid (fun g => { g with asm := addBit g.asm t.stripe })
        settle (freeTags u)

/-- Whether a stripe is the last of its picture. -/
def State.lastStripe (s : State) (t : Task) : Bool := t.stripe + 1 = s.outStripes t.out t.ann.ctu32

/-- The picture's seal is formed with its last stripe (R377): the statistics block takes its suspect CTUs (R352). -/
def sealFormed (t : Task) (p : CodedPic) (s : State) : State :=
  (noteSealed t s).onSelStats t.ann.slot t.ann.grid t.out (fun x => { x with suspect := p.suspects.length })

/-- RTP packets under MODE 1 (R369): the marker and the seal on the picture's last one. -/
def mode1Packets (s : State) (o ts launch : Nat) (close : Option (List Byte)) : Nat → List (List Byte) → List Pkt
  | _, [] => []
  | seq, b :: l =>
    let fin := close.isSome && l.isEmpty
    let ext := match close with
      | some c => if fin then sealExtension (s.fld SEAL.CFG_EXT_ID) c else []
      | none => []
    { launch := some launch
      data := rtpHeader fin fin (s.fld (ASM.OD1_PT o)) seq ts (s.fld (ASM.OD0_SSRC o)) ++ ext ++ b
      sealOf := if fin then close.map (fun c => (o, 0, c)) else none } :: mode1Packets s o ts launch close ((seq + 1) % 65536) l

/-- Datagrams under MODE 0 (R371): seven TS packets behind an RTP header with payload type 33. -/
def mode0Packets (s : State) (o ts launch : Nat) (close : Option (List Byte)) : Nat → List (List Byte) → List Pkt
  | _, [] => []
  | seq, b :: l =>
    { launch := some launch
      data := rtpHeader false false 33 seq ts (s.fld (ASM.OD0_SSRC o)) ++ b
      sealOf := if l.isEmpty then close.map (fun c => (o, 0, c)) else none }
      :: mode0Packets s o ts launch close ((seq + 1) % 65536) l

/-- The number under which ING keeps the ANC data packets of a picture (R214). -/
def ancKey (slot sub grid : Nat) : Nat := grid * 128 + 16 * slot + sub

/-- Bits [i, i + n) of a byte string counted from its first bit, zeros beyond its end. -/
def bitsFrom (l : List Byte) (i n : Nat) : Nat :=
  let b := (l.drop (i / 8)).take (n / 8 + 2) ++ List.replicate (n / 8 + 2) 0
  beNat (b.take (n / 8 + 2)) / 2 ^ (8 * (n / 8 + 2) - i % 8 - n) % 2 ^ n

/-- An ANC data packet of RFC 8331 as ST 2038 carries it: the C bit, line and offset behind six zero bits, then DID, SDID, data count, user
data words and checksum as 10-bit words, and ones to the byte's end (PRESUMED, log entry 69). -/
def anc2038 (b : List Byte) : List Byte :=
  let n := 4 + bitsFrom b 52 10 % 256
  let x := (List.range n).foldl (fun a i => a * 1024 + bitsFrom b (32 + 10 * i) 10) (bitsFrom b 0 24)
  let pad := (8 - (30 + 10 * n) % 8) % 8
  beBytes ((30 + 10 * n + pad) / 8) (x * 2 ^ pad + (2 ^ pad - 1))

/-- The ANC data packets of a picture, as one ST 2038 PES packet with the picture's PTS (R373). A repeat has none. -/
def ancPackets (o : Nat) (t : Task) (p : CodedPic) (s : State) : List TsPacket :=
  let l := Store.at s.anc [] (ancKey (outSlot o) (s.outSub o) p.grid)
  let pid := s.fld (ASM.OD2_ANC_PID o)
  if pid = 0 ∨ p.isRepeat ∨ l = [] then []
  else
    let body := (l.map anc2038).flatten
    let all := pesHeader 0xBD (body.length + 8) (s.ptsOf o p.grid t.ann.ctu32) ++ body
    tsSplit pid true none all.length all

/-- The TS packets of a stripe in order (R370 to R373, R379, R444): PAT, PMT and the audio ahead of stripe 0, video with the PCR on its
first packet, and after the last stripe the ANC packets and the seal. -/
def stripeTs (t : Task) (p : CodedPic) (close : Option (List Byte)) (s : State) : List TsPacket × State :=
  let o := t.out
  let pcr := some (pcrField t.launchAt (s.out o).pcrDisc)
  let (sound, s) := if t.stripe = 0 then soundPackets o t.ann.grid t.ann.ctu32 s else ([], s)
  let head := if t.stripe = 0 then
      [psiPacket 0 (patSection (s.fld (ASM.OD2_PROGRAM o)) (s.fld (ASM.OD1_PMT_PID o))),
       psiPacket (s.fld (ASM.OD1_PMT_PID o)) (pmtSection s o)] ++ sound
    else []
  let es := (if t.stripe = 0 then pesHeader 0xE0 0 (s.ptsOf o p.grid t.ann.ctu32) else []) ++ t.code
  let video := tsSplit (s.fld (ASM.OD1_VIDEO_PID o)) (t.stripe = 0) pcr es.length es
  match close with
  | none => (head ++ video, s)
  | some c => (head ++ video ++ ancPackets o t p s ++ [sealSection (s.fld (ASM.OD1_SEAL_PID o)) c], s)

/-- The packets of a stripe of a contribution or proxy output enter its queue (R368 to R379). -/
def handStripe (t : Task) (s : State) : State :=
  let o := t.out
  match s.picOf o t.ann.grid with
  | none => s
  | some p =>
    let last := s.lastStripe t
    let close := if last then some (pictureSeal s o p (s.sealFlags o p)) else none
    let seq := (s.out o).seq
    let (pkts, u) : List Pkt × State :=
      if s.mode o = 1 then
        (mode1Packets s o (ticks90k (gridAt (s.rate (outSlot o)) p.grid) % 2 ^ 32) t.launchAt close seq
          (rtpPayloads (s.hevc o) (s.fld (ASM.OD0_PAYLOAD_MAX o)) last t.code), s)
      else
        let (ts, u) := stripeTs t p close s
        let numbered := numberTs ts (s.out o).cont
        let u := u.onOut o (fun r => { r with cont := numbered.2, pcrDisc := false })
        (mode0Packets s o (ticks90k t.launchAt % 2 ^ 32) t.launchAt close seq (datagrams numbered.1.length numbered.1), u)
    let pkts : List Pkt := match pkts with
      | [] => []
      | k :: l => { k with rate := some (o, t.ann.grid, t.stripe) } :: l
    let u := u.onOut o (fun r => { r with seq := (seq + pkts.length) % 65536 })
    let u := enqueue (s.fld (ASM.OD3_QUEUE o)) pkts u
    if last then sealFormed t p u else u

/-- Whether an earlier stripe of the same output is still to be handed to its queue: each producer enters packets in launch order (R392). A
band replaced at its floor point is none (R338). -/
def State.earlierOpen (s : State) (t : Task) : Bool :=
  s.tasks.any (fun e => e.2.out = t.out && decide (e.2.launchAt < t.launchAt) && !e.2.floored)

/-- The packets of a stripe or band whose PACKET task has ended enter their queue; a band already replaced at its floor point forms none
(R338). The slot is freed. -/
def handTask (i : Nat) (t : Task) (s : State) : State :=
  let u :=
    if isMezz t.out then
      let u := if t.floored then s
        else
          let (l, u) := bandOfTask t s
          handBand t l (2 * b2n t.ann.stalled) t.spoilt u
      u.onTag t.out t.ann.grid (fun g => { g with asm := addBit g.asm t.stripe })
    else handStripe t s
  freeTags (freeTask i u)

/-- Stripes of output `o` whose PACKET tasks have ended enter their queues in launch order (R392), at most `fuel` of them. -/
def handDue (o : Nat) : Nat → State → State
  | 0, s => s
  | fuel + 1, s =>
    match s.tasks.find? (fun e => e.2.out = o && e.2.packed && !s.earlierOpen e.2) with
    | none => s
    | some e => handDue o fuel (handTask e.1 e.2 s)

/-- PACKET_TASK_DONE (R316, R367, R368): EGS has formed the packets of the stripe or band and seals the picture or region it ends. They enter
their queue once every earlier stripe of the output has. -/
def execPacketTaskDone (task : Fin 4096) (s : State) : Out :=
  finish s <|
    match s.task task.val with
    | none => s
    | some t =>
      if s.inService = false ∨ s.stopped 26 ∨ t.kind ≠ .packet ∨ t.engine = none then s
      else settle (handDue t.out s.tasks.length (s.setTask task.val { t with packed := true }))

/-- MZ_FLOOR_POINT (R338): a band not handed to EGS by its floor point takes the previous picture's slices; FLOORED, MZ_FLOOR and the
count of replaced slices. -/
def execMzFloorPoint (task : Fin 4096) (s : State) : Out :=
  finish s <|
    match s.task task.val with
    | none => s
    | some t =>
      if s.inService = false ∨ isMezz t.out = false ∨ t.floored ∨ t.packed ∨ s.cyc < t.floorPoint then s
      else
        let band := s.bandSlices t
        let u := s.setTask task.val { t with floored := true }
        if band = [] then settle (handDue t.out s.tasks.length u)
        else
          let (l, u) := previousSlices t.out band u
          let slot := outSlot t.out
          let mark := 4 + 2 * b2n t.ann.stalled
          let u := handBand t l mark [] u
          let u := (u.satFld (STC.MZCNT_FLOORED_SLICES slot (s.outSub t.out)) band.length).raise (Pg.stc slot) 5
          settle (handDue t.out s.tasks.length u)

end Sys2Proof.Machine
end

