-- ==== Sys2Proof/Machine/Egress.lean ====
section
/-!
DEFINITION. Machine/Egress.lean: release, the Viaduct's shapers, the choice of the next frame and the time gates (spec 16 R388 to R408).
-/
namespace Sys2Proof.Machine

/-! ### Queues, services, ports (R388, R390) -/

/-- The service a queue is bound to. -/
def State.serviceOf (s : State) (q : Nat) : Nat := s.fld (QUE.CFG_SERVICE (q / 1024) (q % 1024))

/-- Whether a service sends on a path: 0 is A, 1 is B. -/
def State.svcOn (s : State) (v p : Nat) : Bool :=
  if p = 0 then s.fld (SHP.SVC_CFG_A_EN (v / 32) (v % 32)) = 1 else s.fld (SHP.SVC_CFG_B_EN (v / 32) (v % 32)) = 1

/-- The port a service uses on a path. -/
def State.svcPort (s : State) (v p : Nat) : Nat :=
  if p = 0 then s.fld (SHP.SVC_CFG_A_PORT (v / 32) (v % 32)) else 2 + s.fld (SHP.SVC_CFG_B_PORT (v / 32) (v % 32))

/-- The traffic class of a service. -/
def State.svcTc (s : State) (v : Nat) : Nat := s.fld (SHP.SVC_CFG_TC (v / 32) (v % 32))

/-- Whether a service is PACED (R398): a system service, one set so, or one whose AUTO resolved so at its first binding. -/
def State.paced (s : State) (v : Nat) : Bool :=
  let w := s.fld (SHP.SVC_CFG_WAKE (v / 32) (v % 32))
  decide (124 ≤ v) || (if w = 0 then (Store.at s.svcs {} v).paced else decide (w = 1))

/-- Wire bytes of a packet of a queue (R395): the frame from destination address through FCS, padded to 64 bytes, and 20 bytes of preamble
and gap; the tag of its service is added, and to a video, region or audio packet Ethernet, IPv4 and UDP headers (R390). -/
def State.wireBytes (s : State) (q : Nat) (k : Pkt) : Nat :=
  let v := s.serviceOf q
  max 64 (k.data.length + (if 8188 ≤ q then 4 else 46) + 4 * s.fld (SHP.SVC_CFG_VLAN_EN (v / 32) (v % 32))) + 20

/-- A packet's copy on a path. -/
def Pkt.copy (k : Pkt) (p : Nat) : CopyState := if p = 0 then k.a else k.b

/-- A copy's gate wait known. -/
def Pkt.setWait (k : Pkt) (p w : Nat) : Pkt := if p = 0 then { k with waitA := some w } else { k with waitB := some w }

/-- That copy replaced. -/
def Pkt.setCopy (k : Pkt) (p : Nat) (c : CopyState) : Pkt := if p = 0 then { k with a := c } else { k with b := c }

/-! ### Frames (R390) -/

/-- Whether an IPv4 address is multicast: 224.0.0.0 to 239.255.255.255 (R208). -/
def isGroup (ip : Nat) : Bool := ip / 2 ^ 28 = 14

/-- The MAC address of a multicast group (RFC 1112, named by R390). -/
def groupMac (ip : Nat) : Nat := 0x01005E000000 + ip % 2 ^ 23

/-- The Internet checksum of bytes: the complement of their 16-bit one's complement sum. -/
def inetSum : List Byte → Nat
  | [] => 0
  | [a] => a.toNat * 256
  | a :: b :: l => a.toNat * 256 + b.toNat + inetSum l

/-- The checksum field for bytes whose own field is zero. -/
def inetCheck (l : List Byte) : Nat :=
  let x := inetSum l
  let y := x % 65536 + x / 65536
  65535 - (y % 65536 + y / 65536) % 65536

/-- The destination IPv4 address of a queue's frames on a path: the service's, plus the queue's ADDR_OFFSET modulo 2^32. -/
def State.frameDst (s : State) (q p : Nat) : Nat :=
  let v := s.serviceOf q
  ((if p = 0 then s.fld (SHP.SVC_DST_A_DST_IP (v / 32) (v % 32)) else s.fld (SHP.SVC_DST_B_DST_IP (v / 32) (v % 32)))
    + s.fld (QUE.CFG_ADDR_OFFSET (q / 1024) (q % 1024))) % 2 ^ 32

/-- The destination MAC of a queue's frames on a path: derived from a multicast destination, else MAC_A or MAC_B. -/
def State.frameMac (s : State) (q p : Nat) : Nat :=
  let v := s.serviceOf q
  let ip := s.frameDst q p
  if isGroup ip then groupMac ip
  else if p = 0 then s.fld (SHP.SVC_MAC_A_MAC (v / 32) (v % 32)) else s.fld (SHP.SVC_MAC_B_MAC (v / 32) (v % 32))

/-- The destination UDP port of a queue's frames on a path. -/
def State.frameUdp (s : State) (q p : Nat) : Nat :=
  let v := s.serviceOf q
  if p = 0 then s.fld (SHP.SVC_DST_A_DST_UDP (v / 32) (v % 32)) else s.fld (SHP.SVC_DST_B_DST_UDP (v / 32) (v % 32))

/-- Bytes up to the least frame's 60 before its FCS. -/
def padFrame (l : List Byte) : List Byte := l ++ List.replicate (60 - l.length) 0

/-- The tag of a service's frames: its VID and a PCP equal to its TC where VLAN_EN is 1 (R390). -/
def State.frameTag (s : State) (v : Nat) : List Byte :=
  if s.fld (SHP.SVC_CFG_VLAN_EN (v / 32) (v % 32)) = 1 then
    beBytes 2 0x8100 ++ beBytes 2 (s.svcTc v * 8192 + s.fld (SHP.SVC_CFG_VID (v / 32) (v % 32)))
  else []

/-- A frame before its FCS as it leaves port `x` on path `p` (R390): Ethernet, the service's tag, IPv4 with TTL 64, DF and identification 0, UDP,
whose checksum `sum` the rule does not give, and the packet's bytes. A system queue's packet is a whole frame but for the tag. -/
def State.frameBytes (s : State) (x p q : Nat) (data sum : List Byte) : List Byte :=
  let v := s.serviceOf q
  let tag := s.frameTag v
  if 8188 ≤ q then padFrame (data.take 12 ++ tag ++ data.drop 12)
  else
    let n := v / 32
    let k := v % 32
    let ip (check : Nat) : List Byte := beBytes 1 0x45 ++ beBytes 1 (s.fld (SHP.SVC_CFG_DSCP n k) * 4) ++ beBytes 2 (28 + data.length)
      ++ beBytes 2 0 ++ beBytes 2 0x4000 ++ beBytes 1 64 ++ beBytes 1 17 ++ beBytes 2 check ++ beBytes 4 (s.fld (MAC.IPV4_IPV4 x))
      ++ beBytes 4 (s.frameDst q p)
    let udp : List Byte := beBytes 2 (s.fld (SHP.SVC_CFG_SRC_UDP n k)) ++ beBytes 2 (s.frameUdp q p) ++ beBytes 2 (8 + data.length) ++ sum
    padFrame (beBytes 6 (s.frameMac q p) ++ beBytes 6 (s.fld (MAC.ADDR_ADDR x)) ++ tag ++ beBytes 2 0x0800 ++ ip (inetCheck (ip 0)) ++ udp
      ++ data)

/-- What a port that a near-end loop feeds will hear of a frame it sends (R199). -/
def State.echoOf (s : State) (x p q bytes : Nat) (data : List Byte) : Echo :=
  let v := s.serviceOf q
  let tags := s.fld (SHP.SVC_CFG_VLAN_EN (v / 32) (v % 32))
  if 8188 ≤ q then
    let f := padFrame data
    let ip := decide (beNat ((f.drop 12).take 2) = 0x0800)
    let at' (i n : Nat) : Nat := if ip then beNat ((f.drop i).take n) else 0
    let udp := decide (at' 23 1 = 17)
    { size := bytes - 20, tags := tags, dstMac := beNat (f.take 6), srcIp := at' 26 4, dstIp := at' 30 4, udp := if udp then at' 36 2 else 0 }
  else
    { size := bytes - 20, tags := tags, dstMac := s.frameMac q p, srcIp := s.fld (MAC.IPV4_IPV4 x)
      dstIp := s.frameDst q p, udp := s.frameUdp q p }

/-- Whether a queue holds a released copy for a path. -/
def holdsCopy (l : List Pkt) (p : Nat) : Bool := l.any (fun k => k.copy p = .released)

/-- Whether a service holds a released copy for a path in any of its queues. -/
def State.svcHolds (s : State) (v p : Nat) : Bool := s.queues.any (fun e => s.serviceOf e.1 = v && holdsCopy e.2 p)

/-- A queue without the packets both of whose copies are gone (R408). -/
def sweep (l : List Pkt) : List Pkt := l.filter (fun k => !(k.a = .gone && k.b = .gone))

/-! ### Token buckets (R395 to R397) -/

/-- The instance of a queue's, a service's and a class's shaper. -/
def queueBucket (q p : Nat) : Nat := 2 * q + p
def svcBucket (v p : Nat) : Nat := 20000 + 2 * v + p
def classBucket (port c : Nat) : Nat := 30000 + 8 * port + c

/-- RATE_KBPS and BURST of a shaper instance. -/
def State.shape (s : State) (b : Nat) : Nat × Nat :=
  if b < 20000 then (s.fld (QUE.SHAPE_RATE_KBPS (b / 2048) (b / 2 % 1024)), s.fld (QUE.SHAPE_BURST (b / 2048) (b / 2 % 1024)))
  else if b < 30000 then
    let v := (b - 20000) / 2
    (s.fld (SHP.SVC_SHAPE_RATE_KBPS (v / 32) (v % 32)), s.fld (SHP.SVC_SHAPE_BURST (v / 32) (v % 32)))
  else (s.fld (SHP.CLS_RATE_KBPS ((b - 30000) / 8) ((b - 30000) % 8)), s.fld (SHP.CLS_BURST ((b - 30000) / 8) ((b - 30000) % 8)))

/-- Tokens kept to 2^-24 B (R395): an amount between two such steps becomes one of them, which the spec does not say: `up` is free. -/
def keptTokens (up : Bool) (x : Rat) : Rat :=
  let y := (x * 16777216).floor
  if (y : Rat) = x * 16777216 then x else ((if up then y + 1 else y : Int) : Rat) / 16777216

/-- The tokens of an instance now: refilled at RATE_KBPS x 125 B/s since they were last set, up to BURST, and kept to 2^-24 B. -/
def State.tokens (s : State) (b : Nat) : Rat :=
  let k := Store.at s.buckets {} b
  let sh := s.shape b
  min ((64 * sh.2 : Nat) : Rat)
    (keptTokens (Config.tokensUp b s.cyc) (k.tokens + (((s.cyc - k.at0) * sh.1 * 125 : Nat) : Rat) / 400000000))

/-- An instance's tokens set. -/
def setTokens (b : Nat) (x : Rat) (s : State) : State :=
  { s with buckets := Store.put s.buckets {} b { tokens := x, at0 := s.cyc } }

/-- Whether a shaper is ready: a rate, and tokens of 0 or more. -/
def State.shaperReady (s : State) (b : Nat) : Bool := (s.shape b).1 ≠ 0 && decide (0 ≤ s.tokens b)

/-- An accepted write of a SHAPE (R399): every instance's tokens become BURST, or 0. -/
def retoken (full : Bool) (l : List Nat) (s : State) : State :=
  l.foldl (fun t b => setTokens b (if full then ((64 * (t.shape b).2 : Nat) : Rat) else 0) t) s

/-! ### Gate lists (R401, R405, R406) -/

/-- The segments of a list within one cycle: gates, begin and end in ns. Entries of duration 0 are skipped, the last one holds to the
cycle's end, and the cycle cuts the list. -/
def segments (cycle : Nat) : Nat → List (Nat × Nat) → List (Nat × Nat × Nat)
  | _, [] => []
  | begin', e :: l =>
    if cycle ≤ begin' then []
    else if e.2 = 0 then segments cycle begin' l
    else if l.all (fun x => x.2 = 0) then [(e.1, begin', cycle)]
    else (e.1, begin', min cycle (begin' + e.2)) :: segments cycle (begin' + e.2) l

/-- A list's segments. -/
def GateList.segs (g : GateList) : List (Nat × Nat × Nat) := segments g.cycle 0 g.entries

/-- The position in a list at an instant, in counter units from the cycle's beginning: from its base time (R394, R401). -/
def GateList.posAt (g : GateList) (t : Nat) : Nat := (((t : Int) - (g.base : Int)) % ((max 1 (ns g.cycle) : Nat) : Int)).toNat

/-- The segment in force at a position. -/
def GateList.segAt (g : GateList) (pos : Nat) : Option (Nat × Nat × Nat) := g.segs.find? (fun e => ns e.2.1 ≤ pos ∧ pos < ns e.2.2)

/-- The gates in force at an instant under a list. -/
def GateList.gatesAt (g : GateList) (t : Nat) : Nat :=
  match g.segAt (g.posAt t) with
  | some e => e.1
  | none => 255

/-- Whether a class's gate never closes, or never opens, under a list. -/
def GateList.always (g : GateList) (c : Nat) (open' : Bool) : Bool := g.segs.all (fun e => bitAt e.1 c = open')

/-- The open time from position 0 of rotated segments: the lengths up to the first closed one. -/
def openRun (c : Nat) : List (Nat × Nat × Nat) → Nat
  | [] => 0
  | e :: l => if bitAt e.1 c then ns (e.2.2 - e.2.1) + openRun c l else 0

/-- The remaining open time of a class under one list from an instant; none when its gate never closes. -/
def GateList.openLeft (g : GateList) (c t : Nat) : Option Nat :=
  if g.always c true then none
  else
    let pos := g.posAt t
    match g.segAt pos with
    | none => some 0
    | some e =>
      if bitAt e.1 c = false then some 0
      else
        let after := g.segs.filter (fun x => e.2.2 ≤ x.2.1)
        let before := g.segs.filter (fun x => x.2.2 ≤ e.2.1)
        some (ns e.2.2 - pos + openRun c (after ++ before))

/-- The remaining open time under the schedule that will run (R405): the oper list up to a pending list's start, then that list. -/
def openTime (oper next : Option GateList) (c t : Nat) : Option Nat :=
  let now := match oper with
    | none => none
    | some g => g.openLeft c t
  match next with
  | none => now
  | some n =>
    if n.start ≤ t then n.openLeft c t
    else
      let reaches := match now with
        | none => true
        | some x => decide (n.start - t ≤ x)
      if reaches then (n.openLeft c n.start).map (fun x => n.start - t + x) else now

/-- The longest open window of a class in a list, the cycle repeating; none when its gate never closes (R406). -/
def GateList.longest (g : GateList) (c : Nat) : Option Nat :=
  if g.always c true then none
  else
    let l := g.segs
    some (((List.range l.length).map (fun i => openRun c (l.drop i ++ l.take i))).foldl max 0)

/-- The remaining open time is at least `need` ns. -/
def fitsIn (need : Rat) (room : Option Nat) : Bool :=
  match room with
  | none => true
  | some x => decide (need ≤ (x : Rat) / (Config.unitsPerNs : Rat))

/-- A port's record. -/
def State.port (s : State) (x : Nat) : PortTx := Store.at s.ports {} x

/-- That record replaced. -/
def State.setPort (s : State) (x : Nat) (p : PortTx) : State := { s with ports := Store.put s.ports {} x p }

/-- The gates of a port now. -/
def State.gates (s : State) (x : Nat) : Nat :=
  match (s.port x).oper with
  | none => 255
  | some g => g.gatesAt s.ctr

/-- GATEn shows the lists of port `x`: the entry in force, the gate states, the oper list (STAT, OPER_CYCLE). -/
def showGates (x : Nat) (s : State) : State :=
  let p := s.port x
  let t := s.setFld (GATE.STAT_GATES x) (s.gates x)
  let t := (t.setFld (GATE.STAT_OPER_EN x) (b2n p.oper.isSome)).setFld (GATE.STAT_PENDING x) (b2n p.next.isSome)
  match p.oper with
  | none => ((t.setFld (GATE.STAT_OPER_LEN x) 0).setFld (GATE.STAT_CURRENT x) 0).setFld (GATE.OPER_CYCLE_CYCLE x) 0
  | some g =>
    let pos := g.posAt s.ctr
    let starts := (g.entries.zipIdx).foldl (fun (acc : Nat × List (Nat × Nat)) e =>
      (acc.1 + e.1.2, if e.1.2 = 0 then acc.2 else (acc.1, e.2) :: acc.2)) (0, [])
    let cur := match starts.2.find? (fun e => ns e.1 ≤ pos) with
      | some e => e.2
      | none => 0
    ((t.setFld (GATE.STAT_OPER_LEN x) g.entries.length).setFld (GATE.STAT_CURRENT x) cur).setFld (GATE.OPER_CYCLE_CYCLE x) g.cycle

/-! ### Gate waits (R407) -/

/-- The first instant from `t0` at which the class's gate is open with room for `need` ns, before `until'` where one is given; within two
cycles of the list. -/
def firstFit (oper next : Option GateList) (c : Nat) (need : Rat) (t0 : Nat) (until' : Option Nat) : Option Nat :=
  let ok (t : Nat) : Bool := fitsIn need (openTime oper next c t) && (match until' with
    | some u => decide (t < u)
    | none => true)
  match oper with
  | none => if ok t0 then some t0 else none
  | some g =>
    let pos := g.posAt t0
    let cyc := ns g.cycle
    let starts := g.segs.map (fun e => ns e.2.1)
    let later := ((List.range 3).map (fun k => starts.filterMap (fun x =>
      if pos < x + k * cyc then some (t0 + (x + k * cyc - pos)) else none))).flatten
    (t0 :: later).find? ok

/-- The counter instant of a packet's release. -/
def State.releasedAt (s : State) (k : Pkt) : Nat := s.ctr - (s.cyc - k.freeAt) * s.fld PTP.INCR_INCR

/-- The wire time of a frame on a port, in ns: 0.02, 0.04 or 0.08 ns per byte (R186). -/
def State.wireTime (s : State) (x bytes : Nat) : Rat := (bytes * 2 ^ s.fld (MAC.STAT_SPEED x) : Nat) / (50 : Rat)

/-- The first instant at which a released copy has room for its frame under the schedule in force: from its release on, or from the instant since
which that schedule runs (R405, R407). -/
def State.roomAt (s : State) (x c : Nat) (need : Rat) (k : Pkt) : Option Nat :=
  let t := s.port x
  firstFit t.oper t.next c need (max (s.releasedAt k) t.since) (some (s.ctr + 1))

/-- A copy's gate wait in counter units at the start of its frame: as already known, or from the schedule in force, under which it has room now. -/
def State.gateWait (s : State) (x p c : Nat) (need : Rat) (k : Pkt) : Nat :=
  match if p = 0 then k.waitA else k.waitB with
  | some w => w
  | none => (s.roomAt x c need k).getD s.ctr - s.releasedAt k

/-- At a switch of port `x`'s lists or a host step, the gate waits of released copies that found room until then are known (R407). -/
def settleWaits (x : Nat) (s : State) : State :=
  let p := x / 2
  { s with queues := s.queues.map (fun e =>
      let v := s.serviceOf e.1
      if s.svcOn v p && s.svcPort v p = x then
        (e.1, e.2.map (fun k =>
          if k.copy p = .released ∧ (if p = 0 then k.waitA else k.waitB) = none then
            match s.roomAt x (s.svcTc v) (s.wireTime x (s.wireBytes e.1 k)) k with
            | some f => k.setWait p (f - s.releasedAt k)
            | none => k
          else k))
      else e) }

/-- GATE.START shows an instant. -/
def showStart (x t : Nat) (s : State) : State := (s.setFld (GATE.START_SEC_LO x) (secOf t)).setFld (GATE.START_NS x) (nsOf t)

/-- Port `x`'s pending list becomes its oper list (R404). -/
def startGate (x : Nat) (g : GateList) (s : State) : State :=
  let t := settleWaits x s
  let t := t.setPort x { t.port x with oper := some g, next := none, since := g.start, lastStart := g.start }
  (showGates x t).raise (Pg.gate x) 0

/-- GATE_LIST_START (R404): the pending list becomes the oper list at its start time. -/
def execGateListStart (port : Fin 4) (s : State) : Out :=
  finish s <|
    match (s.port port.val).next with
    | none => s
    | some g => if s.inService = false ∨ s.ctr < g.start then s else startGate port.val g s

/-- GATE_ENTRY_CHANGE (R401): the next entry of the oper list comes into force, or its cycle ends. -/
def execGateEntryChange (port : Fin 4) (s : State) : Out :=
  finish s <| if s.inService then showGates port.val s else s

/-! ### Release (R391, R393) -/

/-- The bucket of an output takes the bits of a launched stripe (R300, R304): FILL, OVERS, BUCKET_OVER, and PEAK_PCT with the last
stripe of its picture. -/
def launchBits (r : Nat × Nat × Nat) (s : State) : State :=
  let o := r.1
  let run := s.out o
  match run.rates.find? (fun e => e.grid = r.2.1 ∧ e.stripe = r.2.2), s.picOf o r.2.1 with
  | some e, some p =>
    let size := s.bucketSize o p.ctu32
    let fill := drained (s.drain o : Rat) run.fill run.last e.launch + ((e.size.getD 0 : Nat) : Rat)
    let past := decide (size < fill)
    let pct := if size ≤ 0 then 255 else min 255 (fill * 100 / size).floor.toNat
    let ends := r.2.2 + 1 = s.outStripes o p.ctu32
    let peak := max run.peak pct
    let slot := outSlot o
    let t := s.setOut o { run with
      fill := fill, last := some e.launch, peak := if ends then 0 else peak
      rates := run.rates.filter (fun x => ¬(x.grid = r.2.1 ∧ x.stripe = r.2.2)) }
    let fFill := if isProxy o then STC.PROXY_BUCKET_FILL slot else STC.BUCKET_FILL slot (o % 16)
    let fOver := if isProxy o then STC.PROXY_BUCKET_OVERS slot else STC.BUCKET_OVERS slot (o % 16)
    let fPeak := if isProxy o then STC.PROXY_BUCKET_PEAK_PCT slot else STC.BUCKET_PEAK_PCT slot (o % 16)
    let t := t.setFld fFill (min (2 ^ fFill.w - 1) fill.floor.toNat)
    let t := if past then (t.satFld fOver).raise (Pg.stc slot) 4 else t
    if ends then t.setFld fPeak peak else t
  | _, _ => s

/-- SEAL.LAST0 to LAST7 of a seal's output and region (SEAL registers). -/
def launchSeal (e : Nat × Nat × List Byte) (s : State) : State :=
  (List.range 8).foldl (fun t w => t.setFld (SEAL.LAST_BYTES w (e.1 * 1024 + e.2.1)) (beNat ((e.2.2.drop (4 * w)).take 4))) s

/-- One copy at release: a path its service does not send on has none; a port that is not ACTIVE discards it (R191, R391). -/
def releaseCopy (q p : Nat) (k : Pkt) (s : State) : Pkt × State :=
  let v := s.serviceOf q
  if s.svcOn v p = false then (k.setCopy p .gone, s)
  else
    let x := s.svcPort v p
    if s.portActive x = false then (k.setCopy p .gone, s.addAcc (MAC.TX_DOWN_DROPPED_V x).key)
    else
      let c := s.svcTc v
      let t := if s.paced v = false ∧ s.svcHolds v p = false then
          let u := setTokens (svcBucket v p) (min 0 (s.tokens (svcBucket v p))) s
          let r := Store.at u.svcs {} v
          let tag := Store.at (u.port x).v 0 c
          { u with svcs := Store.put u.svcs {} v (if p = 0 then { r with tagA := tag } else { r with tagB := tag }) }
        else s
      (k.setCopy p .released, t)

/-- The head packet that is still held, with the packets before and after it. -/
def splitHeld : List Pkt → Option (List Pkt × Pkt × List Pkt)
  | [] => none
  | k :: l => if k.a = .held ∧ k.b = .held then some ([], k, l) else (splitHeld l).map (fun r => (k :: r.1, r.2))

/-- A packet is released: copied for each path, its bits and its seal launched. -/
def releaseHead (q : Nat) (pre : List Pkt) (k : Pkt) (post : List Pkt) (s : State) : State :=
  let (k, t) := releaseCopy q 0 { k with freeAt := s.cyc } s
  let (k, t) := releaseCopy q 1 k t
  let t := t.setQueue q (sweep (pre ++ k :: post))
  let t := match k.rate with
    | some r => launchBits r t
    | none => t
  match k.sealOf with
  | some e => launchSeal e t
  | none => t

/-- PACKET_RELEASE (R391): a queue's earliest held packet is released at its launch time; one without a launch time on entry. EGS is
Concourse master 26 (R127). -/
def execPacketRelease (queue : Fin 8192) (s : State) : Out :=
  finish s <|
    let q := queue.val
    match splitHeld (s.queue q) with
    | none => s
    | some (pre, k, post) =>
      let due : Bool := match k.launch with
        | some t => decide (t ≤ s.ctr)
        | none => true
      if s.inService ∧ s.stopped 26 = false ∧ due then releaseHead q pre k post s else s

/-- SPILL_RETURN (R393): the earliest spilled packet of a queue returns to the Gallery. -/
def execSpillReturn (queue : Fin 8192) (s : State) : Out :=
  finish s <|
    let q := queue.val
    let back := (s.queue q).foldl (fun (acc : Bool × List Pkt) k =>
      if acc.1 = false ∧ k.spilled then (true, acc.2 ++ [{ k with spilled := false }]) else (acc.1, acc.2 ++ [k])) (false, [])
    if s.inService ∧ s.stopped 26 = false ∧ back.1 then s.setQueue q back.2 else s

/-! ### Choosing the next frame (R400) -/

/-- A candidate: its queue, service and head packet. -/
structure Candidate where
  q : Nat
  v : Nat
  k : Pkt
deriving DecidableEq, Repr

/-- The ready queues of port `x` on path `p` in class `c` whose service is eligible. -/
def State.candidates (s : State) (x p c : Nat) : List Candidate :=
  s.queues.filterMap (fun e =>
    let v := s.serviceOf e.1
    match e.2.find? (fun k => k.copy p ≠ .gone) with
    | none => none
    | some k =>
      if k.copy p = .released ∧ s.svcOn v p ∧ s.svcPort v p = x ∧ s.svcTc v = c ∧ s.shaperReady (queueBucket e.1 p)
          ∧ s.shaperReady (svcBucket v p) then some ⟨e.1, v, k⟩ else none)

/-- The service that class `c` of port `x` serves next: PACED services round robin after the last one, then the FAIR one with the least
start tag. -/
def State.nextService (s : State) (x p c : Nat) (l : List Candidate) : Option Nat :=
  let paced := (l.map (fun e => e.v)).filter (fun v => s.paced v)
  let last := Store.at (s.port x).lastSvc 1000 c
  match leastKey (paced.map (fun v => ([if last < 1000 ∧ v ≤ last then 1 else 0, v], v))) with
  | some e => some e.2
  | none =>
    (l.map (fun e => e.v)).foldl (fun (best : Option Nat) v =>
      let tag (w : Nat) : Rat := let r := Store.at s.svcs {} w; if p = 0 then r.tagA else r.tagB
      match best with
      | none => some v
      | some b => if tag v < tag b ∨ (tag v = tag b ∧ v < b) then some v else some b) none

/-- The earliest head of a service: earliest launch, then the lower queue. -/
def earliestHead (l : List Candidate) (v : Nat) : Option Candidate :=
  (leastKey ((l.filter (fun e => e.v = v)).map (fun e => ([e.k.launch.getD 0, e.q], e)))).map Prod.snd

/-- The first packet equal to `old` replaced. -/
def swapPkt (old new : Pkt) : List Pkt → List Pkt
  | [] => []
  | k :: l => if k = old then new :: l else k :: swapPkt old new l

/-- A packet of a queue replaced, and packets without copies swept. -/
def State.onPkt (s : State) (q : Nat) (old new : Pkt) : State := s.setQueue q (sweep (swapPkt old new (s.queue q)))

/-- A frame too long for its class's longest window is discarded (R406). -/
def discardLong (x p : Nat) (e : Candidate) (s : State) : State :=
  let t := s.onPkt e.q e.k (e.k.setCopy p .gone)
  let n := e.q / 1024
  let i := e.q % 1024
  let t := (t.satFld (QUE.LATE_TOO_LONG n i)).addAcc (GATE.TOO_LONG_V x).key
  if t.fld (QUE.STAT_TL_SEEN n i) = 1 then t else (t.setFld (QUE.STAT_TL_SEEN n i) 1).raise (Pg.que n) 0

/-- A frame starts on port `x` (R395, R400, R407): the three debits, the counts, the virtual time of a FAIR service. Under the far-end
loop the MAC discards it; under a near-end loop the port's own receiver gets it (R199). The frame's bytes are those of R390; what of them
leaves by the lands State.txSignal says. -/
def startFrame (x p c : Nat) (e : Candidate) (s : State) : State :=
  let bytes := s.wireBytes e.q e.k
  let time := s.wireTime x bytes
  let wait := s.gateWait x p c time e.k
  let late := decide (ns 50 < wait)
  let n := e.q / 1024
  let i := e.q % 1024
  let debit (b : Nat) (t : State) : State := setTokens b (s.tokens b - (bytes : Rat)) t
  let t := debit (classBucket x c) (debit (svcBucket e.v p) (debit (queueBucket e.q p) s))
  let port := t.port x
  let t := if s.paced e.v then t.setPort x { port with lastSvc := Store.put port.lastSvc 1000 c e.v }
    else
      let r := Store.at t.svcs {} e.v
      let tag := if p = 0 then r.tagA else r.tagB
      let next := tag + (bytes : Rat) / ((s.shape (svcBucket e.v p)).1 : Rat)
      { (t.setPort x { port with v := Store.put port.v 0 c tag }) with
        svcs := Store.put t.svcs {} e.v (if p = 0 then { r with tagA := next } else { r with tagB := next }) }
  let now := max (t.port x).busyTo ((s.cyc * 5 : Nat) / (2 : Rat))
  let (sum, t) := t.freeBytes 2
  let t := t.setPort x { t.port x with
    busyTo := now + time, sent := some (e.q, bytes, e.k.data, e.k.bad), frames := (t.port x).frames + 1
    frame := s.frameBytes x p e.q e.k.data sum }
  let l := t.lane x
  let t := if s.looped x then t.setLane x { l with echoes := l.echoes ++ [s.echoOf x p e.q bytes e.k.data] } else t
  let t := t.onPkt e.q e.k (e.k.setCopy p .gone)
  let t := (t.wrapFld (QUE.FRAMES_COUNT n i)).addAcc ((GATE.FRAMES_TC0_V x).key + 8 * c)
  let t := if late then (t.satFld (QUE.LATE_LAUNCH_LATE n i)).addAcc (GATE.LAUNCH_LATE_V x).key else t
  let w := wait / Config.unitsPerNs
  let t := if t.accAt (GATE.WAIT_MAX_V x).key < w then t.setAcc (GATE.WAIT_MAX_V x).key w else t
  let t := if e.k.bad then t.addAcc (GATE.FCS_INVERTED_V x).key else t
  let t := if s.fld (LANE.CFG_LOOP x) = 3 then t.addAcc (MAC.TX_LOOP_DROPPED_V x).key
    else (t.addAcc (MAC.TX_FRAMES_V x).key).addAcc (MAC.TX_BYTES_V x).key (bytes - 20)
  (t.count 8 1 x).count 8 2 x bytes

/-- Whether a class's gate is closed throughout the oper list's cycle: every frame of it is too long (R406). -/
def PortTx.shut (p : PortTx) (c : Nat) : Bool :=
  match p.oper with
  | some g => g.always c false
  | none => false

/-- The selection of R400 from class `c - 1` down; `fuel` bounds the restarts after a discard. A class that never opens still offers its candidate,
which R406 discards: R400 alone would pass it over (DEDUCED, log entry 105). -/
def selectFrame (x p : Nat) : Nat → Nat → State → State
  | 0, _, s => s
  | _, 0, s => s
  | fuel + 1, c + 1, s =>
    if (bitAt (s.gates x) c = false ∧ (s.port x).shut c = false) ∨ s.shaperReady (classBucket x c) = false then selectFrame x p fuel c s
    else
      let l := s.candidates x p c
      match s.nextService x p c l with
      | none => selectFrame x p fuel c s
      | some v =>
        match earliestHead l v with
        | none => selectFrame x p fuel c s
        | some e =>
          let time := s.wireTime x (s.wireBytes e.q e.k)
          let port := s.port x
          let longest := match port.oper with
            | some g => g.longest c
            | none => none
          if fitsIn time longest = false then selectFrame x p fuel 8 (discardLong x p e s)
          else if fitsIn time (openTime port.oper port.next c s.ctr) = false then
            let seen := if p = 0 then e.k.deferA else e.k.deferB
            let t := if seen then s
              else (s.onPkt e.q e.k (if p = 0 then { e.k with deferA := true } else { e.k with deferB := true })).addAcc
                (GATE.FIT_DEFERRED_V x).key
            selectFrame x p fuel c t
          else startFrame x p c e s

/-- Packets held in all queues: the restarts a selection can need. -/
def State.heldPackets (s : State) : Nat := (s.queues.map (fun e => e.2.length)).foldl (· + ·) 0

/-- FRAME_SELECT (R400): port `port` may start a frame. -/
def execFrameSelect (port : Fin 4) (s : State) : Out :=
  finish s <|
    let x := port.val
    if s.inService ∧ s.stopped 26 = false ∧ s.portActive x ∧ (s.port x).busyTo ≤ (s.cyc * 5 : Nat) / (2 : Rat) then
      selectFrame x (x / 2) (8 * (s.heldPackets + 1) + 8) 8 s
    else s

end Sys2Proof.Machine
end

