-- ==== Sys2Proof/Machine/Audio.lean ====
section
/-!
DEFINITION. Machine/Audio.lean: microphones, TDM ports with their slip buffers, the word clock monitor, the sample instants and the send
flows (spec 18 R432 to R442, R446).
-/
namespace Sys2Proof.Machine

/-! ### PDM microphones (R433) -/

/-- MIC_ABSENT (R433): a microphone's bits have been equal for 1 ms. -/
def execMicAbsent (mic : Fin 16) (s : State) : Out :=
  finish s <|
    if s.inService ∧ bitAt (s.fld PDM.STAT_ABSENT) mic.val = false then
      let t := s.onAudio (fun a => { a with absent := Store.put a.absent 0 mic.val s.cyc })
      (t.setFld PDM.STAT_ABSENT (orBit (s.fld PDM.STAT_ABSENT) mic.val)).raise Pg.pdm 0
    else s

/-- MIC_RESUME (R433): 1 ms after its bits change, which they do after it fell absent, the microphone's samples are its own again. -/
def execMicResume (mic : Fin 16) (s : State) : Out :=
  finish s <|
    if s.inService ∧ Store.at s.audio.absent 0 mic.val + msCyc 1 ≤ s.cyc then s.setFld PDM.STAT_ABSENT (clearBit (s.fld PDM.STAT_ABSENT) mic.val) else s

/-- Hz driven on PDM_CLK[k]: an eighth or a quarter of MCLK0, or 0 where the land is held low (R432); none at high impedance (R47, R49). Without core
power there is no clock. -/
def State.pdmClock (s : State) (k : Nat) : Option Nat :=
  if s.drives = false then none
  else if s.pwr.core ∧ bitAt (s.fld PDM.CFG_CLK_EN) k then some (if s.fld PDM.CFG_CLK_RATE = 1 then 6144000 else 3072000)
  else some 0

/-- The ratio of the microphones' decimators (R432): PDM clock over sample rate. -/
def State.pdmRatio (s : State) : Nat := (if s.fld PDM.CFG_CLK_RATE = 1 then 6144000 else 3072000) / s.audioHz

/-- Hz driven on a running MASTER port's TDMn_BCLK: F_a x SLOTS x 32 (R434, R435). On the others the land is an input; at high impedance it is not
driven either (R47, R49). -/
def State.bclk (s : State) (n : Nat) : Option Nat :=
  if s.drives ∧ s.fld (TDM.CFG_CLOCK n) = 0 ∧ (Store.at s.audio.ports none n).isSome then some (s.audioHz * s.tdmSlots n * 32) else none

/-- What a running port drives on TDMn_FSYNC over the BCLK periods of its frame: high for the first alone (R434, R435). In SLAVE mode the land is an
input. -/
def State.fsync (s : State) (n : Nat) : Option (List Bool) :=
  if s.drives ∧ s.fld (TDM.CFG_CLOCK n) ≠ 1 ∧ (Store.at s.audio.ports none n).isSome then
    some (true :: List.replicate (32 * s.tdmSlots n - 1) false)
  else none

/-- A slot's 32 bits on the wire (R434): the sample, MSB first, and eight zeros. -/
def slotBits (v : Nat) : List Bool := ((List.range 24).map (fun i => bitAt v (23 - i))) ++ List.replicate 8 false

/-- TDMn_SDOUT over the BCLK periods of the port's frame, from its first bit on: high impedance for the whole of a slot that is not driven (R434,
R436). -/
def State.sdout (s : State) (n : Nat) : List (Option Bool) :=
  match Store.at s.audio.ports none n with
  | none => []
  | some r => if s.drives then (r.wire.map (fun x => match x with
      | some v => (slotBits v).map some
      | none => List.replicate 32 none)).flatten else []

/-- TDMn_SDOUT at BCLK rising edge `e`, counted from the one at which FSYNC is first seen high: the frame's first bit lies CFG.DELAY edges later
(R434). -/
def State.sdoutAt (s : State) (n e : Nat) : Option Bool := if e < s.fld (TDM.CFG_DELAY n) then none else nth (s.sdout n) (e - s.fld (TDM.CFG_DELAY n)) none

/-- The samples of `count` slots among the bits that TDMn_SDIN showed at successive BCLK rising edges, from the one at which FSYNC was first seen
high: the first bit of slot 0 lies `delay` edges later, a sample is the first 24 bits of its slot, MSB first, and the other 8 are ignored
(R434). -/
def slotSamples (delay count : Nat) (bits : List Bool) : List Nat :=
  (List.range count).map (fun k => (List.range 24).foldl (fun v i => 2 * v + b2n (nth bits (delay + 32 * k + i) false)) 0)

/-- A microphone's sample (R432): the decimator's output, which the spec does not fix, after the high-pass filter where HPF is 1 and the gain, with
saturation at 24 bits. -/
def State.micSample (s : State) (m n : Nat) (w : Reg) : Nat :=
  let raw := signedOf 24 (w.toNat % 2 ^ 24)
  let passed := if s.fld (PDM.MIC_HPF m) = 1 then Config.highPassed m n raw else raw
  let g := s.fld (PDM.MIC_GAIN m)
  unsignedOf 24 (clampInt (-(2 ^ 23 : Int)) (2 ^ 23 - 1) (if g = 0 then passed else Config.gained g passed))

/-- The microphones deliver sample `n` (R432, R440): zero while absent. One whose PDM_CLK is held low shows no bit that changes, and its samples are
zero as well (DEDUCED, log entry 104). -/
def pdmSamples (n : Nat) (s : State) : State :=
  (List.range 16).foldl (fun t m =>
    if t.entriesOf 1 m 0 = [] then t
    else if bitAt (t.fld PDM.STAT_ABSENT) m ∨ bitAt (t.fld PDM.CFG_CLK_EN) (m / 4) = false then deliver 1 m 0 n 0 t
    else
      let (w, u) := t.freeWord
      deliver 1 m 0 n (t.micSample m n w) u) s

/-! ### TDM ports (R434 to R438) -/

/-- A port's run. -/
def State.tdm (s : State) (n : Nat) : Option TdmRun := Store.at s.audio.ports none n

/-- A port's run replaced. -/
def State.setTdm (s : State) (n : Nat) (r : Option TdmRun) : State :=
  s.onAudio (fun a => { a with ports := Store.put a.ports none n r })

/-- One slip of a port (R437, R449). -/
def slip (n : Nat) (drop : Bool) (s : State) : State :=
  ((if drop then s.satFld (TDM.STAT_SLIP_DROP n) else s.satFld (TDM.STAT_SLIP_REPEAT n)).count 10 1 n).raise (Pg.tdm n) 0

/-- One read of a slip buffer under R437: the frame read, the buffer left, and whether a frame was dropped or repeated. -/
def slipRead (buf : List (List Nat)) (last : List Nat) : List Nat × List (List Nat) × Option Bool :=
  if 56 ≤ buf.length then (nth buf 1 [], buf.drop 2, some true)
  else if buf.length ≤ 8 then (last, buf, some false)
  else (nth buf 0 [], buf.drop 1, none)

/-- A slip counted, where there was one. -/
def slipNote (n : Nat) (k : Option Bool) (s : State) : State :=
  match k with
  | some d => slip n d s
  | none => s

/-- The slots of an input frame that its RX_MASK admits; the others are zero (R436). -/
def admitted (mask : Nat) (frame : List Nat) : List Nat := (frame.zipIdx).map (fun e => if bitAt mask e.2 then e.1 else 0)

/-- A frame's samples delivered under capture index `i`. -/
def deliverFrame (n i : Nat) (frame : List Nat) (s : State) : State :=
  (frame.zipIdx).foldl (fun t e => deliver 2 n e.2 i e.1 t) s

/-- The samples that a port's output slots use at sample instant `i` (R431). One that is not enabled is no sink, and nothing is missed for it;
its sample is ready for the frame start at which TX_MASK may enable it (R436). -/
def portSamples (n i mask : Nat) (s : State) : List Nat × State :=
  (List.range (s.tdmSlots n)).foldl (fun a k =>
    if a.2.fld (TDM.CFG_PLAY n) ≤ i then
      let r := useSample (a.2.txEntry n k) (i - a.2.fld (TDM.CFG_PLAY n)) a.2
      (a.1 ++ [r.1], if bitAt mask k then r.2 else a.2)
    else (a.1 ++ [0], a.2)) ([], s)

/-- The slots as they are driven: high impedance where TX_MASK is 0 (R436). -/
def driven (mask : Nat) (frame : List Nat) : List (Option Nat) :=
  (frame.zipIdx).map (fun e => if bitAt mask e.2 then some (e.1 % 2 ^ 24) else none)

/-- A frame is cut (R435): counted and raised. -/
def realign (n : Nat) (s : State) : State := (s.satFld (TDM.REALIGNS_COUNT n)).raise (Pg.tdm n) 2

/-- A frame start of a MASTER port at the present sample instant: the frame that ended is delivered under the index of its own start (R440),
a cut one repeats the frame before; the new frame carries the samples of this instant. -/
def masterFrame (n : Nat) (r : TdmRun) (cut : Bool) (slots : List Nat) (s : State) : State :=
  let i := sampleIndex s.audioHz s.ctr
  let got := if cut then r.lastIn else admitted r.rxMask slots
  let t := if r.fresh ∨ i = 0 then s else deliverFrame n (i - 1) got s
  let rx := t.fld (TDM.MASK_RX_MASK n)
  let tx := t.fld (TDM.MASK_TX_MASK n)
  let (frame, t) := portSamples n i tx t
  t.setTdm n (some { r with
    startAt := t.cyc, rxMask := rx, txMask := tx, lastIn := if r.fresh then r.lastIn else got, lastOut := frame
    wire := driven tx frame, fresh := false })

/-- A frame start of a slave port: the frame that ended enters the input buffer unless it was cut, and the new frame is read from the output
buffer (R437). -/
def slaveFrame (n : Nat) (r : TdmRun) (cut : Bool) (slots : List Nat) (s : State) : State :=
  let (frame, out, k) := slipRead r.output r.lastOut
  let t := slipNote n k s
  let rx := t.fld (TDM.MASK_RX_MASK n)
  let tx := t.fld (TDM.MASK_TX_MASK n)
  t.setTdm n (some { r with
    startAt := t.cyc, rxMask := rx, txMask := tx, input := if cut ∨ r.fresh then r.input else (r.input ++ [admitted r.rxMask slots]).take 64
    output := out, lastOut := frame, wire := driven tx frame, fresh := false, again := r.again || cut })

/-- Whether the counter has reached a sample instant in this cycle (R429). -/
def State.atSample (s : State) : Bool :=
  decide (s.ctr < sampleInstant s.audioHz (sampleIndex s.audioHz s.ctr) + s.fld PTP.INCR_INCR)

/-- TDM_FRAME_START (R434 to R439): a frame of an enabled port starts `bclks` BCLK periods after the previous start; `slots` are the bits that
TDMn_SDIN showed in the frame that ends, from the edge at which its FSYNC was first seen high on. A MASTER port starts a frame at a sample instant
alone. A port that holds over starts its frames itself, SLOTS x 32 periods apart, so none is cut. -/
def execTdmFrameStart (port : Fin 4) (bclks : Nat) (slots : List Bool) (s : State) : Out :=
  finish s <|
    let n := port.val
    if s.inService = false ∨ (s.fld (TDM.CFG_CLOCK n) = 0 ∧ s.atSample = false) then s
    else match s.tdm n with
      | none => s
      | some _ =>
        let clock := s.fld (TDM.CFG_CLOCK n)
        let s := if s.fld (TDM.STAT_STATE n) = 2 then startPort n s else s
        let s := s.setFld (TDM.STAT_STATE n) (s.portState n)
        match s.tdm n with
        | none => s
        | some r =>
          let cut := !r.fresh && decide (bclks ≠ 32 * s.tdmSlots n) && decide (s.portState n ≠ 3)
          let s := if cut then realign n s else s
          let v := slotSamples (s.fld (TDM.CFG_DELAY n)) (s.tdmSlots n) slots
          if clock = 0 then masterFrame n r cut v s else slaveFrame n r cut v s

/-- PORT_STALL (R438): a slave port has seen no frame start for 1 ms; it drives no output. -/
def execPortStall (port : Fin 4) (s : State) : Out :=
  finish s <|
    let n := port.val
    match s.tdm n with
    | none => s
    | some r =>
      if s.inService ∧ s.fld (TDM.CFG_CLOCK n) ≠ 0 ∧ s.fld (TDM.STAT_STATE n) ≠ 2 ∧ r.startAt + msCyc 1 ≤ s.cyc then
        ((s.setTdm n (some { r with wire := [] })).setFld (TDM.STAT_STATE n) 2).raise (Pg.tdm n) 1
      else s

/-- The MCLK0 side of a slave port at sample instant `i` (R437, R440): one input frame read, under the index 32 samples before, and one
output frame written. A stalled port is idle. -/
def slaveSample (i : Nat) (s : State) (n : Nat) : State :=
  match s.tdm n with
  | none => s
  | some r =>
    if s.fld (TDM.CFG_CLOCK n) = 0 ∨ s.fld (TDM.STAT_STATE n) = 2 then s
    else
      let (frame, input, k) := if r.again then (r.lastIn, r.input, none) else slipRead r.input r.lastIn
      let t := slipNote n k s
      let t := if 32 ≤ i then deliverFrame n (i - 32) frame t else t
      let (out, t) := portSamples n i (t.fld (TDM.MASK_TX_MASK n)) t
      t.setTdm n (some { r with input := input, lastIn := frame, again := false, output := (r.output ++ [out]).take 64 })

/-- A change of TDMn's ENABLE (R435, R437, R479): refused where the port cannot run at F_a. -/
def tdmEnable (n : Nat) (on : Bool) (s : State) : State × Code :=
  let high := s.fld AUDC.CFG_RATE = 1
  let b := Pg.tdm n
  if on then
    if s.fld (PG_CTRL_ENABLE b) = 1 then (s, .ok)
    else if s.fld (TDM.CFG_CLOCK n) = 2 ∧ s.fld AUDC.WCLK_CFG_RATE ≠ (if high then 3 else 1) then (s, .decodeError)
    else if high ∧ s.fld (TDM.CFG_SLOTS n) = 4 then (s, .decodeError)
    else
      let t := ((s.setFld (PG_CTRL_ENABLE b) 1).setFld (TDM.STAT_SLIP_DROP n) 0).setFld (TDM.STAT_SLIP_REPEAT n) 0
      (startPort n t, .ok)
  else (((s.setFld (PG_CTRL_ENABLE b) 0).setTdm n none).setFld (TDM.STAT_STATE n) 0, .ok)

/-! ### The word clock monitor (R179, R180, R439) -/

/-- The word rate of a code of WCLK_CFG.RATE, in Hz. -/
def wclkHz : Nat → Nat
  | 0 => 44100 | 1 => 48000 | 2 => 88200 | _ => 96000

/-- Whether a mean edge period in ps is in tolerance at a word rate. -/
def wclkInTolerance (rate p : Nat) : Bool := within100ppm p 1000000000000 (wclkHz rate)

/-- The rate code a period shows: 14 for none listed, 15 for no edge. -/
def wclkSeen : Option Nat → Nat
  | none => 15
  | some p => ((List.range 4).find? (fun r => wclkInTolerance r p)).getD 14

/-- WCLK_PERIOD_END (R179, R180): a 1 ms window ends. Three bad windows in a row lose the clock; 2 s of good ones qualify it. -/
def execWclkPeriodEnd (periodPs : Option Nat) (s : State) : Out :=
  finish s <|
    if s.inService ∧ s.fld AUDC.WCLK_CFG_ENABLE = 1 then
      let ok := match periodPs with
        | some p => wclkInTolerance (s.fld AUDC.WCLK_CFG_RATE) p
        | none => false
      let m := s.audio.wclk.after ok 1000000000
      let t := s.onAudio (fun a => { a with wclk := m })
      let t := t.setFld AUDC.WCLK_STAT_SEEN (wclkSeen periodPs)
      let t := if ok then t else t.satFld AUDC.WCLK_STAT_BAD_PERIODS
      let st := t.fld AUDC.WCLK_STAT_STATE
      showPorts (if m.bad = 3 ∧ st ≠ 3 then ((t.setFld AUDC.WCLK_STAT_STATE 3).satFld AUDC.WCLK_STAT_LOSSES).raise Pg.audc 1
        else if 2000000000000 ≤ m.good ∧ (st = 1 ∨ st = 3) then (t.setFld AUDC.WCLK_STAT_STATE 2).raise Pg.audc 0
        else t)
    else s

/-! ### Send flows (R442) -/

/-- The packet of a send flow with first sample `r.next` enters its queue at its launch instant. -/
def sendPacket (f : Nat) (r : SendRun) (s : State) : State :=
  let reads := ((List.range r.ptime).map (fun i => (List.range r.count).map (fun c => (r.first + c, r.next + i)))).flatten
  let (vs, t) := useSamples reads s
  let data := rtpHeader false false r.pt (r.seq % 65536) (r.next % 2 ^ 32) r.ssrc ++ (vs.map (beBytes 3)).flatten
  let at' := sampleInstant t.audioHz (r.next + r.delay)
  let t := enqueue r.queue [{ launch := some at', data := data }] t
  t.onAudio (fun a => { a with sends := Store.put a.sends none f (some { r with next := r.next + r.ptime, seq := r.seq + 1 }) })

/-- A send flow at sample instant `i`: its next packet launches, or it has sent its last. -/
def sendSample (i : Nat) (s : State) (f : Nat) : State :=
  match Store.at s.audio.sends none f with
  | none => s
  | some r =>
    let past := match r.until_ with
      | some u => decide (u < r.next + r.ptime)
      | none => false
    if past then s.onAudio (fun a => { a with sends := Store.put a.sends none f none })
    else if r.next + r.delay = i then sendPacket f r s
    else s

/-- One sample instant (R429 to R442). -/
def sampleInstantAt (i : Nat) (s : State) : State :=
  let t := if 24 ≤ i then pdmSamples (i - 24) s else s
  let t := (List.range 4).foldl (slaveSample i) t
  (t.audio.sends.map Prod.fst).foldl (sendSample i) t

/-- Sample instants `i`, `i` + 1, ... in order. -/
def sampleInstants : Nat → Nat → State → State
  | 0, _, s => s
  | n + 1, i, s => sampleInstants n (i + 1) (sampleInstantAt i s)

/-- Whether anything follows sample instants: an entry fed by a microphone, a port, a send flow. -/
def State.audioRuns (s : State) : Bool := s.entriesSet ≠ [] || s.audio.ports ≠ [] || s.audio.sends ≠ []

/-- The sample instants that the counter passed from `before` to now. -/
def samplesPassed (before : Nat) (s : State) : State :=
  let hz := s.audioHz
  let lo := sampleIndex hz before
  let hi := sampleIndex hz s.ctr
  if s.audioRuns then sampleInstants (hi - lo) (lo + 1) s else s

/-- AUD at a host step (R446): every ring is cleared, MASTER ports cut their frame, send flows follow the stepped timeline. -/
def stepAudio (before : Nat) (s : State) : State :=
  let hz := s.audioHz
  let was := sampleIndex hz before
  let now := sampleIndex hz s.ctr
  let move (x : Nat) : Nat := x + now - was
  let t := s.onAudio (fun a => { a with
    rings := [], stepN := some now
    sends := a.sends.map (fun e => (e.1, e.2.map (fun r => { r with next := move r.next, until_ := r.until_.map move }))) })
  (List.range 4).foldl (fun t n =>
    match t.tdm n with
    | some r => if t.fld (TDM.CFG_CLOCK n) = 0 ∧ r.fresh = false then realign n (t.setTdm n (some { r with fresh := true })) else t
    | none => t) t

end Sys2Proof.Machine
end

