-- ==== Sys2Proof/Machine/Crypto.lean ====
section
/-!
DEFINITION. Machine/Crypto.lean: SHA-256, and RSASSA-PSS as R65 uses it: verification of image signatures, and the signature of the
attestation report (R88). What the spec names by FIPS 180-4 and RFC 8017 is taken from those standards (log entry 99).
-/
namespace Sys2Proof.Machine

/-! ### The constants of SHA-256

FIPS 180-4 defines them as the first 32 bits of the fractional parts of roots of the first primes: here they are computed so. -/

/-- The greatest number below 2^bits more than `r` whose k-th power does not exceed `x`, found bit by bit from the top. -/
def rootFrom (k x : Nat) : Nat → Nat → Nat
  | 0, r => r
  | bit + 1, r => rootFrom k x bit (if (r + 2 ^ bit) ^ k ≤ x then r + 2 ^ bit else r)

/-- The first 32 bits of the fractional part of the k-th root of `p`, for p below 2^15. -/
def rootFraction (k p : Nat) : BitVec 32 := BitVec.ofNat 32 (rootFrom k (p * 2 ^ (32 * k)) 47 0)

/-- The primes below 312: the first 64. -/
def firstPrimes : List Nat :=
  (List.range 312).filter (fun n => 2 ≤ n && (List.range 18).all (fun d => d < 2 || n ≤ d || n % d != 0))

/-- K: one constant for each of the 64 rounds. -/
def roundConstants : List (BitVec 32) := firstPrimes.map (rootFraction 3)

/-- The digest before the first block. -/
def digestStart : Vector (BitVec 32) 8 := Vector.ofFn (fun i => rootFraction 2 (nth firstPrimes i.val 0))

/-! ### SHA-256 -/

/-- The XOR of three rotations to the right. -/
def threeTurns (x y z : Nat) (w : BitVec 32) : BitVec 32 := w.rotateRight x ^^^ w.rotateRight y ^^^ w.rotateRight z

/-- The XOR of two rotations and a shift to the right. -/
def twoTurns (x y shift : Nat) (w : BitVec 32) : BitVec 32 := w.rotateRight x ^^^ w.rotateRight y ^^^ (w >>> shift)

/-- The window of the 16 latest schedule words after one more word joins it and the oldest leaves. -/
def slide (w : Vector (BitVec 32) 16) : Vector (BitVec 32) 16 :=
  let next := w[0] + twoTurns 7 18 3 w[1] + w[9] + twoTurns 17 19 10 w[14]
  Vector.ofFn (fun i => if h : i.val < 15 then w[i.val + 1] else next)

/-- The eight working variables after a round whose constant plus schedule word is `kw`. -/
def shaRound (v : Vector (BitVec 32) 8) (kw : BitVec 32) : Vector (BitVec 32) 8 :=
  let pick := (v[4] &&& (v[5] ^^^ v[6])) ^^^ v[6]
  let most := (v[0] &&& (v[1] ||| v[2])) ||| (v[1] &&& v[2])
  let rise := v[7] + threeTurns 6 11 25 v[4] + pick + kw
  #v[rise + threeTurns 2 13 22 v[0] + most, v[0], v[1], v[2], v[3] + rise, v[4], v[5], v[6]]

/-- The rounds of a block: each takes the oldest word of the window. -/
def shaRounds : List (BitVec 32) → Vector (BitVec 32) 16 → Vector (BitVec 32) 8 → Vector (BitVec 32) 8
  | [], _, v => v
  | k :: ks, w, v => shaRounds ks (slide w) (shaRound v (k + w[0]))

/-- The digest after one block of 64 bytes. -/
def shaBlock (d : Vector (BitVec 32) 8) (block : List Byte) : Vector (BitVec 32) 8 :=
  let w : Vector (BitVec 32) 16 := Vector.ofFn (fun i => BitVec.ofNat 32 (beNat ((block.drop (4 * i.val)).take 4)))
  let v := shaRounds roundConstants w d
  Vector.ofFn (fun i => d[i] + v[i])

/-- The digest after `n` blocks. -/
def shaOver (m : List Byte) : Nat → Vector (BitVec 32) 8
  | 0 => digestStart
  | n + 1 => shaBlock (shaOver m n) ((m.drop (64 * n)).take 64)

/-- A message padded to whole blocks: a one bit, zeros, and the length in bits as the last 8 bytes. -/
def shaPadded (m : List Byte) : List Byte :=
  m ++ (0x80 : Byte) :: List.replicate (63 - (m.length + 8) % 64) 0 ++ beBytes 8 (8 * m.length)

/-- SHA-256: 32 bytes. -/
def sha256 (m : List Byte) : List Byte :=
  let p := shaPadded m
  ((shaOver p (p.length / 64)).toList.map (fun w => beBytes 4 w.toNat)).flatten

/-! ### RSASSA-PSS (R65, RFC 8017) -/

/-- b ^ e mod n, bit by bit of the exponent. -/
def powMod (n : Nat) : Nat → Nat → Nat → Nat
  | 0, _, _ => 1 % n
  | fuel + 1, b, e =>
    if e = 0 then 1 % n
    else
      let r := powMod n fuel (b * b % n) (e / 2)
      if e % 2 = 1 then r * b % n else r

/-- MGF1 with SHA-256: `n` bytes from a seed. -/
def mgf1 (seed : List Byte) (n : Nat) : List Byte :=
  (((List.range (ceilDiv n 32)).map (fun i => sha256 (seed ++ beBytes 4 i))).flatten).take n

/-- Two byte lists, bit by bit. -/
def xorBytes (a b : List Byte) : List Byte := (a.zip b).map (fun e => e.1 ^^^ e.2)

/-- A byte string of which the bits above the lowest `bits` are cleared. -/
def clearTop (bits : Nat) (b : List Byte) : List Byte := beBytes b.length (beNat b % 2 ^ bits)

/-- H of an encoding: the hash over eight zero bytes, the message's hash and the salt. -/
def pssHash (hash salt : List Byte) : List Byte := sha256 (List.replicate 8 0 ++ hash ++ salt)

/-- EMSA-PSS: the encoding of a message hash in `bits` bits, with a salt of 32 bytes and trailer 0xBC. -/
def pssEncode (hash salt : List Byte) (bits : Nat) : List Byte :=
  let n := ceilDiv bits 8 - 33
  let h := pssHash hash salt
  let block := List.replicate (n - 33) 0 ++ (1 : Byte) :: salt
  clearTop (bits - 264) (xorBytes block (mgf1 h n)) ++ h ++ [0xBC]

/-- Whether an encoded message is EMSA-PSS of a message hash: the salt it holds gives it. -/
def pssVerify (hash em : List Byte) (bits : Nat) : Bool :=
  let n := ceilDiv bits 8 - 33
  let salt := (clearTop (bits - 264) (xorBytes (em.take n) (mgf1 ((em.drop n).take 32) n))).drop (n - 32)
  decide (66 ≤ ceilDiv bits 8 ∧ em = pssEncode hash salt bits)

/-- Whether a signature, stored little-endian, verifies over a message hash under a modulus and exponent (R65). The encoding has one bit less
than the modulus. -/
def rsaVerify (n e : Nat) (sig hash : List Byte) : Bool :=
  let x := leNat sig
  let bits := Nat.log2 n
  let em := powMod n 32 x e
  decide (0 < n ∧ x < n ∧ em < 2 ^ (8 * ceilDiv bits 8)) && pssVerify hash (beBytes (ceilDiv bits 8) em) bits

/-- The signature of a message hash with a salt, under a modulus and private exponent: 384 bytes, stored little-endian (R64, R65). -/
def rsaSign (n d : Nat) (hash salt : List Byte) : List Byte :=
  leBytes 384 (powMod n 3072 (beNat (pssEncode hash salt (Nat.log2 n))) d)

end Sys2Proof.Machine
end

