-- ==== Sys2Proof/Machine/MemoryCtl.lean ====
section
/-!
DEFINITION. Machine/MemoryCtl.lean: the HBM controller (refresh, self-refresh, write queues, check bits) and the Gallery's coded words
(spec 17 R413 to R428, 14 R355 to R362).
-/
namespace Sys2Proof.Machine

/-! ### Refresh (R415 to R418) -/

/-- The refresh interval of a stack in TIME_CLK cycles: 3.9 µs, hot 1.95 µs (R415). -/
def State.interval (s : State) (stack : Nat) : Nat := if s.fld (HBM.REFRESH_HOT stack) = 1 then 780 else 1560

/-- MODE of R416. -/
def Pc.mode (p : Pc) : Nat :=
  if p.debt = 0 then 0 else if p.urgent then 3 else if p.payback then 4 else if p.debt = 8 then 2 else 1

/-- A pseudo-channel's record replaced; PC_STAT and REFRESH follow it. -/
def State.setPc (s : State) (k : Nat) (p : Pc) : State :=
  let t := { s with pcs := Store.put s.pcs {} k p }
  let n := k / 32
  let i := k % 32
  let t := (t.setFld (HBM.PC_STAT_WQ_DEPTH n i) p.wq.length).setFld (HBM.PC_STAT_SR n i) p.sr
  let t := (t.setFld (HBM.PC_STAT_MODE n i) p.mode).setFld (HBM.PC_STAT_DEBT n i) p.debt
  let mine := t.pcs.filter (fun e => e.1 / 32 = n)
  let t := t.setFld (HBM.REFRESH_MAX_DEBT n) ((mine.map (fun e => e.2.debt)).foldl max 0)
  t.setFld (HBM.REFRESH_URGENT n) (b2n (mine.any (fun e => e.2.urgent)))

/-- A pseudo-channel's debt becomes `d` (R416, R418): above 8 it is URGENT, which is raised and counted on entry; from URGENT it falls
into PAYBACK, which lasts until the debt is 0. The first refresh owed can begin when its interval ended. -/
def setDebt (k d : Nat) (s : State) : State :=
  let p := s.pc k
  let p := if p.debt = 0 then { p with freeAt := max p.freeAt p.since } else p
  if 8 < d then
    let t := s.setPc k { p with debt := d, urgent := true, payback := false }
    if p.urgent then t else (t.satFld (HBM.REFRESH_URGENT_RUNS (k / 32))).raise (Pg.hbm (k / 32)) 2
  else s.setPc k { p with debt := d, urgent := false, payback := (p.urgent || p.payback) && decide (0 < d) }

/-- A pseudo-channel whose idle time begins now, with the IDLE_US in force (R419). -/
def State.idleFrom (s : State) (k : Nat) (p : Pc) : Pc := { p with busyAt := s.cyc, wait := s.fld (HBM.SR_CFG_IDLE_US (k / 32)) }

/-- REFRESH.HOT of both stacks as their temperature has it (R415). -/
def showHot (s : State) : State :=
  let t := s.setFld (HBM.REFRESH_HOT 0) (b2n (decide (85 < s.pwr.stack0)))
  t.setFld (HBM.REFRESH_HOT 1) (b2n (decide (85 < s.pwr.stack1)))

/-- Refresh runs from training step 5 on, at each stack's temperature (R425): where the timers stand at a later instant of INIT no command says,
a free value. -/
def startRefresh (s : State) : State :=
  let (w, t) := (showHot s).freeWord
  (List.range 64).foldl (fun u k => u.setPc k { since := t.cyc - w.toNat % t.interval (k / 32), busyAt := t.cyc }) t

/-- Every pseudo-channel's idle time begins now, with the IDLE_US in force (R419). -/
def idleAll (s : State) : State := (List.range 64).foldl (fun u k => u.setPc k (s.idleFrom k (u.pc k))) s

/-- REFRESH_INTERVAL_END (R415): one more refresh is owed, and the timer restarts at the interval's end. -/
def execRefreshIntervalEnd (pc : Fin 64) (s : State) : Out :=
  finish s <|
    let k := pc.val
    let p := s.pc k
    if s.inService ∧ p.sr = 0 ∧ p.since + s.interval (k / 32) ≤ s.cyc then
      setDebt k (p.debt + 1) (s.setPc k { p with since := p.since + s.interval (k / 32) })
    else s

/-- The earliest cycle in which the refresh of a pseudo-channel that goes next ends: it takes 160 ns, after the refresh before it and the last request
(R415). -/
def Pc.refreshEnd (p : Pc) : Nat := max p.freeAt p.busyAt + 64

/-- REFRESH_DONE (R415, R416): a refresh completes; LAZY issues one only without a queued request and does not restart the idle time
(R419). The second read of a beat goes first (R360). -/
def execRefreshDone (pc : Fin 64) (s : State) : Out :=
  finish s <|
    let k := pc.val
    let p := s.pc k
    if s.inService = false ∨ p.sr ≠ 0 ∨ p.debt = 0 ∨ (p.mode = 1 ∧ p.wq ≠ []) ∨ s.rereadWaits k ∨ s.cyc < p.refreshEnd then s
    else
      let p' : Pc := { p with freeAt := p.refreshEnd }
      let t := s.setPc k (if p.mode = 1 then p' else s.idleFrom k p')
      (setDebt k (p.debt - 1) t).count 9 3 k

/-- One pseudo-channel at a temperature crossing (R417): an interval that has ended at the old length ends first; above 85 °C the debt
doubles and an elapsed time of 1.95 µs owes one more; below, the debt is halved, rounding up. In self-refresh nothing changes (R420). -/
def crossPc (above : Bool) (old k : Nat) (s : State) : State :=
  let p := s.pc k
  if p.sr ≠ 0 then s
  else
    let ended := (s.cyc - p.since) / old
    let s := if ended = 0 then s else setDebt k (p.debt + ended) (s.setPc k { p with since := p.since + ended * old })
    let p := s.pc k
    if above then
      let more := decide (p.since + 780 ≤ s.cyc)
      setDebt k (2 * p.debt + b2n more) (if more then s.setPc k { p with since := p.since + 780 } else s)
    else setDebt k ((p.debt + 1) / 2) s

/-- HBM_TEMP_CROSSING (R415, R417): the keeper's sample of a stack crosses 85 °C. -/
def execHbmTempCrossing (stack : Fin 2) (above : Bool) (s : State) : Out :=
  finish s <|
    let n := stack.val
    let temp := signedOf 8 (if n = 0 then s.fld KPR.THERM_STAT_HBM0_C else s.fld KPR.THERM_STAT_HBM1_C)
    let hot := s.fld (HBM.REFRESH_HOT n) = 1
    if s.inService ∧ decide (85 < temp) = above ∧ decide hot ≠ above then
      let t := s.setFld (HBM.REFRESH_HOT n) (b2n above)
      (List.range 32).foldl (fun u i => crossPc above (s.interval n) (32 * n + i) u) t
    else s

/-! ### Self-refresh (R419, R420) -/

/-- SELF_REFRESH_ENTRY (R419): an idle channel enters self-refresh; counted in ENTRIES. -/
def execSelfRefreshEntry (channel : Fin 32) (s : State) : Out :=
  finish s <|
    let c := channel.val
    if s.inService ∧ s.channelIdle c then
      let t := s.wrapFld (HBM.SR_STAT_ENTRIES (c / 16))
      let t := t.setPc (2 * c) { t.pc (2 * c) with sr := 2 }
      t.setPc (2 * c + 1) { t.pc (2 * c + 1) with sr := 2 }
    else s

/-- A channel's exit from self-refresh for `n` waiting requests (R420): counted, the debts 0, the timers restarted. -/
def leaveSelfRefresh (c n : Nat) (s : State) : State :=
  let t := s.satFld (HBM.SR_STAT_SR_LATE (c / 16)) n
  let fresh (p : Pc) : Pc := s.idleFrom (2 * c) { p with sr := 0, debt := 0, urgent := false, payback := false, since := s.cyc }
  let t := t.setPc (2 * c) (fresh (t.pc (2 * c)))
  t.setPc (2 * c + 1) (fresh (t.pc (2 * c + 1)))

/-- SELF_REFRESH_EXIT (R420): `accepted` requests have waited for the exit, at least the one that caused it. -/
def execSelfRefreshExit (channel : Fin 32) (accepted : Nat) (s : State) : Out :=
  finish s <|
    let c := channel.val
    if s.inService ∧ (s.pc (2 * c)).sr = 2 ∧ 1 ≤ accepted then leaveSelfRefresh c accepted s else s

/-- A request is accepted at pseudo-channel `k` (R419, R420): one in self-refresh waits for the exit and is late; one on a channel about to enter
aborts the entry; the idle time begins again. -/
def touchPc (k : Nat) (s : State) : State :=
  let c := k / 2
  let t := if (s.pc k).sr = 2 then leaveSelfRefresh c 1 s
    else if s.channelIdle c then s.satFld (HBM.SR_STAT_ABORTS (c / 16)) else s
  t.setPc k (s.idleFrom k (t.pc k))

/-- The channels in self-refresh that an access of `n` bytes touches exit, with every burst of the access late (R420). -/
def wake (addr n : Nat) (s : State) : State :=
  ((touched addr n).map (· / 2)).eraseDups.foldl (fun t c =>
    if (t.pc (2 * c)).sr = 2 then leaveSelfRefresh c (burstsIn c addr n) t else t) s

/-! ### The write queue (R421 to R423) -/

/-- All 32 bytes enabled. -/
def fullMask : Nat := 2 ^ 32 - 1

/-- A queued entry is dropped, its merge read having found a poisoned beat (R423): the dropped write is counted; the idle time begins again. -/
def dropEntry (k beat : Nat) (s : State) : State :=
  let p := s.pc k
  (s.setPc k (s.idleFrom k { p with wq := p.wq.filter (fun x => x.beat ≠ beat) })).satFld (HBM.ECC_CNT_UNCORR (k / 32))

/-- The merge read of a queued entry returns (R423): the entry becomes full; a poisoned beat drops it. -/
def mergeEntry (k : Nat) (e : WqEntry) (s : State) : State :=
  let p := s.pc k
  if Store.at s.poison false e.beat then dropEntry k e.beat s
  else
    let full : WqEntry := { e with mask := fullMask, data := overlay 32 e.mask e.data (Memory.read s.hbm (32 * e.beat) 32) }
    (s.setPc k { p with wq := p.wq.map (fun x => if x.beat = e.beat then full else x) }).satFld (HBM.FWD_MERGES (k / 32))

/-- An entry written to the stack with new check bits; a poison mark goes with the old code (R360, R422). -/
def writeEntry (k : Nat) (s : State) (e : WqEntry) : State :=
  let p := s.pc k
  let t := { s with hbm := Memory.write s.hbm (32 * e.beat) e.data, poison := Store.put s.poison false e.beat false }
  (t.setPc k (s.idleFrom k { p with wq := p.wq.filter (fun x => x.beat ≠ e.beat) })).count 9 2 k

/-- A batch of up to 32 full entries, oldest first, is issued (R422). -/
def issueBatch (k : Nat) (s : State) : State :=
  (((s.pc k).wq.filter (fun e => e.mask = fullMask)).take 32).foldl (writeEntry k) s

/-- Room in a queue that the beats of one long write have filled: the writes issue as R422 has it from 32 entries on, once entries still short are
merged. -/
def makeRoom (k : Nat) (s : State) : State :=
  if (s.pc k).wq.length < 64 then s
  else issueBatch k (((s.pc k).wq.filter (fun e => e.mask ≠ fullMask)).foldl (fun t e => mergeEntry k e t) s)

/-- A write beat is accepted (R421): merged into the beat's entry, or a new entry; without an enabled byte it never enters. -/
def writeBeat (beat mask : Nat) (data : List Byte) (s : State) : State :=
  if mask = 0 then s
  else
    let k := pcOf (32 * beat)
    let t := touchPc k s
    match t.wqEntry beat with
    | some e =>
      let m : WqEntry := { e with mask := e.mask ||| mask, data := overlay 32 mask data e.data }
      t.setPc k { t.pc k with wq := (t.pc k).wq.map (fun x => if x.beat = beat then m else x) }
    | none =>
      let u := makeRoom k t
      u.setPc k { u.pc k with wq := (u.pc k).wq ++ [{ beat := beat, mask := mask, data := data }] }

/-- Bytes written to HBM by a host path: beat by beat (R421). -/
def State.hbmWrite (s : State) (addr : Nat) (bytes : List Byte) : State :=
  let s := wake addr bytes.length s
  let last := addr + bytes.length
  (List.range ((last + 31) / 32 - addr / 32)).foldl (fun t i =>
    let b := addr / 32 + i
    let lo := max addr (32 * b)
    let hi := min last (32 * b + 32)
    let part := (bytes.drop (lo - addr)).take (hi - lo)
    writeBeat b (2 ^ (hi - 32 * b) - 2 ^ (lo - 32 * b)) (List.replicate (lo - 32 * b) 0 ++ part ++ List.replicate (32 * b + 32 - hi) 0) t) s

/-- A read beat (R422, R423): served from a full entry and counted in FORWARDED, after its merge read from one still short, else from the
stack. Answers whether the beat is poisoned (R360). -/
def readBeat (beat : Nat) (s : State) : Bool × State :=
  let k := pcOf (32 * beat)
  let t := touchPc k s
  let t := match t.wqEntry beat with
    | some e => if e.mask = fullMask then t else mergeEntry k e t
    | none => t
  let t := t.count 9 1 k
  match t.wqEntry beat with
  | some _ => (false, t.satFld (HBM.FWD_FORWARDED (k / 32)))
  | none => (Store.at t.poison false beat, t)

/-- Bytes read from HBM by a host path or a scan, which of their beats are poisoned, and the state after (R360, R422). -/
def State.hbmRead (s : State) (addr n : Nat) : List Byte × List Bool × State :=
  if n = 0 then ([], [], s)
  else
    let r := (List.range ((addr + n + 31) / 32 - addr / 32)).foldl (fun (acc : List Bool × State) i =>
      let x := readBeat (addr / 32 + i) acc.2
      (acc.1 ++ [x.1], x.2)) ([], wake addr n s)
    (r.2.hbmBytes addr n, r.1, r.2)

/-- WRITE_BATCH (R422): an owed refresh and a second read go ahead of it (R360, R416). -/
def execWriteBatch (pc : Fin 64) (s : State) : Out :=
  finish s <| if s.inService ∧ s.readsServed pc.val then issueBatch pc.val s else s

/-! ### Readers of data that cannot be trusted (R361, R362) -/

/-- The Concourse master that a reader is (R127). -/
def readerMaster : Reader → Nat
  | .bayReference b _ _ => b.val
  | .baySource b _ => b.val
  | .bayOwn b _ => b.val
  | .mzeOwn e _ => 16 + e.val
  | .mzeSource e _ => 16 + e.val
  | .pafSource _ _ _ => 25
  | .pafLineStore _ _ _ => 25
  | .pafTable _ _ _ => 25
  | .ingMerge _ _ _ => 24
  | .blockRecord b _ _ _ => b.val
  | .stripeSummary _ _ _ _ => 27
  | .rateTable _ => 27
  | .dspSlot _ _ => 27
  | .dspTag _ _ => 27
  | .egsPacket _ _ => 26
  | .controlCore _ => 29
  | .hostRead => 28
  | .crcScan => 30
  | .mergeRead => 31

/-- Whether a reader's word lies in a private array or in PAF's line or table store, which are no part of the Gallery (R355). -/
def readerArray : Reader → Bool
  | .bayOwn _ a => a
  | .mzeOwn _ a => a
  | .pafLineStore _ _ _ => true
  | .pafTable _ _ _ => true
  | _ => false

/-- A control core stops (R362, R465, R466): its bit in WDOG_STAT.EXPIRED and CORE_STOP. READY is unchanged. -/
def coreStop (c : Nat) (s : State) : State :=
  (s.setFld KPR.WDOG_STAT_EXPIRED (orBit (s.fld KPR.WDOG_STAT_EXPIRED) c)).raise Pg.kpr 5

/-- Whether stripe `k` of an output's picture has not started (R270, R361). -/
def State.notStarted (s : State) (o grid k : Nat) : Bool :=
  match s.tagOf o grid with
  | none => false
  | some (_, g) =>
    !decide (k ∈ g.enc) && s.tasks.all (fun e =>
      !(e.2.out = o && e.2.ann.grid = grid && e.2.stripe = k) || (e.2.kind.consumer = .bays && e.2.engine.isNone))

/-- One suspect CTU of reference picture `r` (R270, R361): it is marked; when the next picture's covering stripe has started, it is coded
as a refresh band in the first later picture whose covering stripe has not. -/
def suspectCtu (o : Nat) (r : CodedPic) (s : State) (kc : Nat × Nat) : State :=
  let t := s.onCoded o r.grid (fun p => { p with suspects := if kc ∈ p.suspects then p.suspects else kc :: p.suspects })
  let later := ((t.out o).pics.takeWhile (fun q => q.grid ≠ r.grid)).reverse
  match later with
  | [] => t
  | n :: rest =>
    if t.notStarted o n.grid kc.1 then t
    else match rest.find? (fun q => t.notStarted o q.grid kc.1) with
      | some q => t.onCoded o q.grid (fun p => { p with bands := kc :: p.bands })
      | none => t.onOut o (fun x => { x with bandsNext := kc :: x.bandsNext })

/-- A bay's read of a reference (R361). `ctus` are CTUs of the reference counted from its top left. -/
def distrustReference (n picture : Nat) (ctus : List Nat) (s : State) : State :=
  match s.bayRun n with
  | none => s
  | some run =>
    match s.task run.task with
    | none => s
    | some t =>
      match (s.out t.out).pics.find? (fun p => p.number = picture && p.grid != t.ann.grid) with
      | none => s
      | some r =>
        let across := s.outCtus t.out r.ctu32
        (ctus.map (fun c => (c / across, c % across))).foldl (suspectCtu t.out r) (s.flagPic t.out t.ann.grid flagSuspect)

/-- A bay's read of source lines (R362): CONCEALED; the CTUs are coded as the skip CTU or, where the co-located area in the picture they would copy
is not trustworthy, as the DC CTU, and are then suspect. -/
def distrustSource (n : Nat) (ctus : List Nat) (s : State) : State :=
  match s.bayRun n with
  | none => s
  | some run =>
    match s.task run.task with
    | none => s
    | some t =>
      let u := s.flagPic t.out t.ann.grid flagConcealed
      let bad := ctus.filter (fun c => match s.picOf t.out t.ann.grid with
        | none => true
        | some p => (match s.copied t.out p with
          | none => true
          | some q => decide ((t.stripe, c) ∈ q.suspects)))
      u.setBay n { run with suspects := bad.foldl addBit run.suspects, spoilt := ctus.foldl addBit run.spoilt }

/-- The stripe summary of the previous picture takes the place of one the Stair could not read (R362). -/
def distrustSummary (slot sub picture stripe : Nat) (s : State) : State :=
  match s.tasks.find? (fun e =>
      e.2.ann.slot = slot && e.2.ann.sub = sub && e.2.ann.picture = picture && e.2.ann.stripe = stripe) with
  | none => s
  | some (_, t) =>
    let (b, u) := takeSummary t.ann 0 s
    { u with summary := Store.put u.summary [] (recordKey slot sub t.ann.picture stripe) b }

/-- Whether the picture of a slot that is under way already counts stale for its rate tables (R311). -/
def State.countsStale (s : State) (slot : Nat) : Bool :=
  match (s.slot slot).boundary with
  | some g => bitAt (s.statsAt slot (g - 1)).stale 0
  | none => false

/-- A slot's unreadable rate table entry: its reset value is used from now on, and the picture counts stale, once (R311, R362). The rebuild that
the rule forces is the one that the next boundary starts (R309). -/
def distrustTable (slot at' : Nat) (s : State) : State :=
  let r := Store.at s.rates {} (rateKey slot 0)
  let s := { s with rates := Store.put s.rates {} (rateKey slot 0) { r with bad := addBit r.bad at' } }
  if s.countsStale slot then s else
  let run := s.fld (STC.TABLES_STALE_RUN slot)
  let t := (s.satFld (STC.TABLES_STALES slot)).setFld (STC.TABLES_STALE_RUN slot) (min 15 (run + 1))
  let t := match (s.slot slot).boundary with
    | some g => t.onStats slot (g - 1) (fun x => { x with stale := orBit x.stale 0 })
    | none => t
  if run + 1 = 4 then t.raise (Pg.stc slot) 0 else t

/-- A record of the Dispatcher with both copies bad (R362): DSP_DOUBLE, FATAL, HALTED. -/
def dspDouble (which index : Nat) (s : State) : State := halt ((s.record 0x41 7 which index).raise Pg.kpr 6)

/-- A pass in progress changed. -/
def onPass (slot sub stripe : Nat) (f : Pass → Pass) (s : State) : State :=
  { s with passes := s.passes.map (fun x =>
      if x.start.isSome ∧ x.ann.slot = slot ∧ x.ann.sub = sub ∧ x.ann.stripe = stripe then f x else x) }

/-- A block record that could not be read is absent from what a bay's start work loaded (R240, R362). -/
def withoutRecord (p : RecordPlace) (row col : Nat) (r : BayRun) : BayRun :=
  let blank (l : List (List (List (Int × Int)))) : List (List (List (Int × Int))) := l.set row ((nth l row []).set col [])
  match p with
  | .own => { r with own := blank r.own }
  | .above => { r with above := r.above.set col [] }
  | .before => { r with before := blank r.before }

/-- The recovery that R361 and R362 give each reader. `at'` is the Gallery offset of the word. What a merge read finds the controller handles
itself (R423). -/
def distrust (r : Reader) (at' : Nat) (s : State) : State :=
  match r with
  | .bayReference b picture ctus => distrustReference b.val picture ctus s
  | .baySource b ctus => distrustSource b.val ctus s
  | .bayOwn b _ => engineLoss b.val s
  | .mzeOwn e _ => settle (mzeAbandon e.val (s.satFld (MZE.FAULT_FAULTS e.val)))
  | .mzeSource e slices =>
    (match s.runningOn .mze e.val with
    | none => s
    | some (i, t) => s.setTask i { t with spoilt := slices ++ t.spoilt })
  | .pafSource slot sub stripe => onPass slot.val sub.val stripe (fun x => { x with bad := true }) s
  | .pafLineStore slot sub stripe => onPass slot.val sub.val stripe (fun x => { x with absent := true }) s
  | .pafTable slot table node =>
    let k := 2 * slot.val + table.val
    { s with lutBad := Store.put s.lutBad [] k (addBit (Store.at s.lutBad [] k) node) }
  | .ingMerge slot sub line =>
    (match (s.sub slot.val sub.val).pics.find? (fun p => (Store.at p.lines {} line).groups != [] && !decide (line ∈ p.closed)) with
    | none => s
    | some p => concealLine slot.val sub.val p line s)
  | .blockRecord b p row col =>
    (match s.bayRun b.val with
    | none => s
    | some r => s.setBay b.val (withoutRecord p row col r))
  | .stripeSummary slot sub picture stripe => distrustSummary slot.val sub.val picture stripe s
  | .rateTable slot => distrustTable slot.val at' s
  | .dspSlot i both => if both then dspDouble 0 i s else s
  | .dspTag i both => if both then dspDouble 1 i s else s
  | .egsPacket q i => s.setQueue q.val ((s.queue q.val).modify i (fun k => { k with bad := true }))
  | .controlCore c => coreStop c.val (s.record 0x40 7 c.val at')
  | .hostRead => { s with replies := { s.replies with ep := [true] } }
  | .mergeRead => s
  | .crcScan => s

/-- A word or beat at fabric address `a` that a running scan has fed as read counts in POISONED (R386); one not yet fed counts when it is. -/
def scanMarks (a : Nat) (reader : Reader) (s : State) : State :=
  match s.scan with
  | some r =>
    if reader = .crcScan ∧ r.addr ≤ a ∧ a < r.addr + r.fed then
      ({ s with scan := some { r with bad := r.bad + 1 } }).satFld CHK.SCAN_STAT_POISONED
    else s
  | none => s

/-! ### Gallery words (R355 to R357) -/

/-- The bits of a number's `n` lowest that are set. -/
def setBits (n x : Nat) : List Nat := (List.range n).filter (bitAt x)

/-- Bytes with the bits of `mask` inverted; bit i of the word is bit i mod 8 of byte i / 8. -/
def flipBytes (mask : Nat) (l : List Byte) : List Byte := leBytes l.length (leNat l ^^^ (mask % 2 ^ (8 * l.length)))

/-- What the SECDED (72,64) decoder makes of a word: clean, a correction of bit `i` (0 to 63 data, 64 to 71 check), or uncorrectable. -/
inductive Verdict
  | clean
  | fixed (i : Nat)
  | bad
deriving DecidableEq, Repr

/-- One flipped bit is corrected and two are uncorrectable (R355). The places of the code's columns are not stated: whether four or more
flips pass, and what three or more odd ones look like, are free values. -/
def galVerdict (flips : List Nat) (s : State) : Verdict × State :=
  match flips with
  | [] => (.clean, s)
  | [i] => (.fixed i, s)
  | [_, _] => (.bad, s)
  | _ =>
    if flips.length % 2 = 0 then
      let (b, t) := s.freeBool
      (if b then .clean else .bad, t)
    else
      let (w, t) := s.freeWord
      (if w.toNat % 73 < 72 then .fixed (w.toNat % 73) else .bad, t)

/-- GAL.ECC_LAST. -/
def galLast (kind scrub bit off : Nat) (s : State) : State :=
  let t := (s.setReg (Pg.gal + 0x110) 0).setFld GAL.ECC_LAST_KIND kind
  ((t.setFld GAL.ECC_LAST_SCRUB scrub).setFld GAL.ECC_LAST_BIT bit).setFld GAL.ECC_LAST_OFFSET off

/-- A correction of bit `i` is counted, shown and raised (R355). -/
def galFixed (scrub i off : Nat) (s : State) : State :=
  let t := if i < 64 then s.satFld GAL.ECC_CNT_DATA_CORR else s.satFld GAL.ECC_CNT_CHECK_CORR
  (galLast (if i < 64 then 0 else 1) scrub i off t).raise Pg.gal 0

/-- An uncorrectable word is counted, shown, recorded and raised (R355). -/
def galBad (scrub off master : Nat) (s : State) : State :=
  let t := galLast 2 scrub 0 off (s.satFld GAL.ECC_CNT_UNCORR)
  (t.record 0x30 4 (t.reg (Pg.gal + 0x110)).toNat master).raise Pg.gal 1

/-- A read of a word of a private array or of PAF's stores (R355). The spec gives such words no offset: what ECC_LAST shows is free. `known`: the
word was found uncorrectable before and nothing has replaced it (R358). -/
def arrayRead (known : Bool) (flips : BitVec 72) (master : Nat) (s : State) : Bool × State :=
  let (v, t) := if known then (Verdict.bad, s) else galVerdict (setBits 72 flips.toNat) s
  let (w, u) := t.freeWord
  match v with
  | .clean => (false, t)
  | .fixed i => (false, galFixed 0 i (w.toNat % 2 ^ 26) u)
  | .bad => (true, galBad 0 (w.toNat % 2 ^ 26) master u)

/-- A read of the Gallery word at `off` whose stored bits are flipped as told (R355): a correction is counted, raised and noted for its
write-back; an uncorrectable word keeps its bits, is counted, raised and recorded. Answers whether it was uncorrectable. -/
def galRead (off : Nat) (flips : BitVec 72) (scrub master : Nat) (s : State) : Bool × State :=
  let w := off / 8
  let known := Store.at s.badWords false w
  let (v, t) := if known then (Verdict.bad, s) else galVerdict (setBits 72 flips.toNat) s
  let word := Memory.read t.gallery (8 * w) 8
  match v with
  | .clean => (false, t)
  | .fixed i =>
    let fixedBits := flips.toNat ^^^ 2 ^ i
    (false, galFixed scrub i (8 * w) { t with wbacks := Store.put t.wbacks [] w (flipBytes (fixedBits % 2 ^ 64) word) })
  | .bad =>
    let t := if known then t
      else { t with gallery := Memory.write t.gallery (8 * w) (flipBytes (flips.toNat % 2 ^ 64) word)
                    badWords := Store.put t.badWords false w true, wbacks := Store.put t.wbacks [] w [] }
    (true, galBad scrub (8 * w) master t)

/-- Whether a reader's word was found uncorrectable before: a node of a PAF table that no swap has replaced (R358). -/
def State.knownBad (s : State) : Reader → Bool
  | .pafTable slot table node => decide (node ∈ Store.at s.lutBad [] (2 * slot.val + table.val))
  | _ => false

/-- Whether a reader works now: the control cores from BOOT on, as they run what the control partition holds, the others in service. -/
def State.reads (s : State) : Reader → Bool
  | .controlCore _ => s.pwr.core && !s.isHalted
  | _ => s.inService

/-- GALLERY_READ_ECC (R355, R358, R361, R362): a master reads a word of the Gallery, of a private array or of PAF's stores. -/
def execGalleryReadEcc (offset : BitVec 26) (flips : BitVec 72) (reader : Reader) (s : State) : Out :=
  finish s <|
    if s.reads reader = false then s
    else
      let m := readerMaster reader
      let r := if readerArray reader then arrayRead (s.knownBad reader) flips m s else galRead offset.toNat flips 0 m s
      if r.1 then scanMarks (0x800000000 + offset.toNat / 8 * 8) reader (distrust reader (offset.toNat / 8 * 8) r.2) else r.2

/-- A master's write of the enabled bytes of Gallery word `w` (R357): all 64 bits replace an uncorrectable word; a partial write of one is not merged
and counts in UNCORR; the word takes no write-back of what was read before. -/
def galStore (w mask : Nat) (data : List Byte) (s : State) : State :=
  if mask % 256 = 0 then s
  else
    let t := { s with wbacks := Store.put s.wbacks [] w [] }
    if mask % 256 ≠ 255 ∧ Store.at t.badWords false w then t.satFld GAL.ECC_CNT_UNCORR
    else { t with gallery := Memory.write t.gallery (8 * w) (overlay 8 mask data (Memory.read t.gallery (8 * w) 8))
                  badWords := Store.put t.badWords false w false }

/-- Gallery bytes written by a master, word by word (R357). -/
def State.galWrite (s : State) (off : Nat) (bytes : List Byte) : State :=
  let last := off + bytes.length
  (List.range ((last + 7) / 8 - off / 8)).foldl (fun t i =>
    let w := off / 8 + i
    let lo := max off (8 * w)
    let hi := min last (8 * w + 8)
    let part := (bytes.drop (lo - off)).take (hi - lo)
    galStore w (2 ^ (hi - 8 * w) - 2 ^ (lo - 8 * w)) (List.replicate (lo - 8 * w) 0 ++ part ++ List.replicate (8 * w + 8 - hi) 0) t) s

/-- ECC_WRITEBACK (R355, R357): a corrected word is written back in an idle cycle; a master's write of the word in the same cycle is stored and
prevails. -/
def execEccWriteback (offset : BitVec 26) (masterWrites : Option GalWrite) (s : State) : Out :=
  finish s <|
    let w := offset.toNat / 8
    match masterWrites with
    | some g => if s.pwr.core then galStore w g.enable.toNat (leBytes 8 g.data.toNat) s else s
    | none =>
      match Store.at s.wbacks [] w with
      | [] => s
      | b => { s with wbacks := Store.put s.wbacks [] w [], gallery := Memory.write s.gallery (8 * w) b }

/-- The scrubber of a word: one per bank (R356). -/
def scrubberOf (off : Nat) : Nat := 16 * (galleryPlace off).group + (galleryPlace off).bank

/-- Words of a bank. -/
def bankWords : Nat := 32768

/-- The words of a scrubber's bank that hold a code (R356, R428): from READY on all of them; before INIT step 3 has ended those of the staging area,
groups 3 to 8, and of the control partition, group 14 and the first half of group 15. -/
def State.codedWords (s : State) (scrubber : Nat) : Nat :=
  let g := scrubber / 16
  if s.inService ∨ (3 ≤ g ∧ g ≤ 8) ∨ g = 14 then bankWords else if g = 15 then bankWords / 2 else 0

/-- Passes that every scrubber has completed. -/
def State.scrubPasses (s : State) : Nat :=
  ((List.range 256).map (fun b => Store.at s.scrub 0 b / bankWords)).foldl min (Store.at s.scrub 0 0 / bankWords)

/-- SCRUB_WORD (R356): a bank's scrubber reads the word at its place and goes on to the next; an uncorrectable one is left, and handled when a master
reads it. The order of a bank's words is not stated: they go by number (DESIGN CHOICE, log entry 98). The reading master of its record is not
stated: a free value. -/
def execScrubWord (offset : BitVec 26) (flips : BitVec 72) (s : State) : Out :=
  finish s <|
    let b := scrubberOf offset.toNat
    let at' := Store.at s.scrub 0 b
    let last := s.codedWords b
    if s.pwr.core ∧ s.isHalted = false ∧ s.fld GAL.SCRUB_EN = 1 ∧ (galleryPlace offset.toNat).word = at' % bankWords ∧ at' % bankWords < last then
      let (m, u) := s.freeWord
      let t := (galRead offset.toNat flips 1 m.toNat u).2
      let next := if at' % bankWords + 1 = last then (at' / bankWords + 1) * bankWords else at' + 1
      let t := { t with scrub := Store.put t.scrub 0 b next }
      if s.scrubPasses < t.scrubPasses then t.wrapFld GAL.SCRUB_PASSES else t
    else s

/-! ### HBM beats (R359, R360, R424) -/

/-- p(i) of R424: data bits 0, 1 to 3, 4 to 10, 11 to 25, 26 to 56, 57 to 119, 120 to 246 and 247 to 255 lie between powers of two. -/
def beatPosition (i : Nat) : Nat :=
  if i < 1 then i + 3 else if i < 4 then i + 4 else if i < 11 then i + 5 else if i < 26 then i + 6
  else if i < 57 then i + 7 else if i < 120 then i + 8 else if i < 247 then i + 9 else i + 10

/-- The position of bit `i` of the 266: data bits 0 to 255, check bits 0 to 8 at 256 to 264; bit 9 of the code has none. -/
def codePosition (i : Nat) : Nat := if i < 256 then beatPosition i else if i < 265 then 2 ^ (i - 256) else 0

/-- What the controller's code makes of a beat (R424): a correction names bit 0 to 265. -/
def beatVerdict (flips : List Nat) : Verdict :=
  let syn := (flips.map codePosition).foldl (· ^^^ ·) 0
  if flips.length % 2 = 0 then (if syn = 0 then .clean else .bad)
  else if syn = 0 then .fixed 265
  else match (List.range 265).find? (fun i => codePosition i = syn) with
    | some i => .fixed i
    | none => .bad

/-- HBMn.ECC_LAST. -/
def hbmLast (kind addr : Nat) (s : State) : State :=
  let n := pcOf addr / 32
  let t := (s.setReg (Pg.hbm n + 0x110) 0).setFld (HBM.ECC_LAST_KIND n) kind
  (t.setFld (HBM.ECC_LAST_PC n) (pcOf addr % 32)).setFld (HBM.ECC_LAST_ADDR n) addr

/-- A beat the controller's code corrects (R359): counted, raised, and written back unless a write of the beat is queued. -/
def hbmCorrected (beat i : Nat) (flips : BitVec 266) (s : State) : State :=
  let n := pcOf (32 * beat) / 32
  let t := if i < 256 then s.satFld (HBM.ECC_CNT_DATA_CORR n) else s.satFld (HBM.ECC_CNT_CHECK_CORR n)
  let t := (hbmLast (if i < 256 then 0 else 1) (32 * beat) t).raise (Pg.hbm n) 0
  if (t.wqEntry beat).isSome then t
  else
    let b := flipBytes ((flips.toNat ^^^ 2 ^ i) % 2 ^ 256) (Memory.read t.hbm (32 * beat) 32)
    { t with hbm := Memory.write t.hbm (32 * beat) b }

/-- A beat as it returns from the stack is checked (R359, R360): `onDie` was corrected by the stack, `onDieBad` reported uncorrected. What neither
code corrects is read again. -/
def checkBeat (beat : Nat) (flips : BitVec 266) (onDie onDieBad : Bool) (s : State) : State :=
  let t := if onDie then s.satFld (HBM.ECC_AUX_ONDIE_CORR (pcOf (32 * beat) / 32)) else s
  let again := { t with rereads := t.rereads ++ [beat] }
  if onDieBad ∨ Store.at s.poison false beat then again
  else match beatVerdict (setBits 266 flips.toNat) with
    | .clean => t
    | .fixed i => hbmCorrected beat i flips t
    | .bad => again

/-- HBM_READ_ECC (R359, R360): a beat read from the stack is checked. A read that matches a queued write is served from it, after its merge read
where it is short, and is not checked (R422, R423). The request restarts the idle time and ends self-refresh (R419, R420); owed refreshes and a
second read go ahead of it (R360, R416). -/
def execHbmReadEcc (addr : BitVec 35) (flips : BitVec 266) (onDie : Bool) (onDieBad : Bool) (reader : Reader) (s : State) : Out :=
  finish s <|
    let _ := reader
    let beat := addr.toNat / 32
    if s.inService = false ∨ s.readsServed (pcOf addr.toNat) = false then s
    else if (s.wqEntry beat).isSome then (readBeat beat s).2
    else checkBeat beat flips onDie onDieBad ((touchPc (pcOf addr.toNat) s).count 9 1 (pcOf addr.toNat))

/-- MERGE_READ_DONE (R423): the beat of a merge read is checked as any read is; the entry becomes full unless the beat is to be read again. A beat
already poisoned drops it. -/
def execMergeReadDone (pc : Fin 64) (read : MergeRead) (s : State) : Out :=
  finish s <|
    let k := pc.val
    let beat := read.beat.toNat
    match (s.pc k).wq.find? (fun e => e.beat = beat) with
    | none => s
    | some e =>
      if s.inService = false ∨ e.mask = fullMask ∨ s.readsServed k = false then s
      else if Store.at s.poison false beat then mergeEntry k e s
      else
        let t := checkBeat beat read.flips read.onDie read.onDieBad s
        if beat ∈ t.rereads then t else mergeEntry k e t

/-- A poisoned beat (R360): its bits stay as read, marked; ECC_UNCORR, a fault record, and the reader's recovery; a merge read's entry is dropped
(R423), and the master of its record is not stated: a free value. -/
def poisonBeat (beat : Nat) (flips : BitVec 266) (reader : Reader) (s : State) : State :=
  let n := pcOf (32 * beat) / 32
  let t := if Store.at s.poison false beat then s
    else { s with
      hbm := Memory.write s.hbm (32 * beat) (flipBytes (flips.toNat % 2 ^ 256) (Memory.read s.hbm (32 * beat) 32))
      poison := Store.put s.poison false beat true }
  let t := hbmLast 2 (32 * beat) (t.satFld (HBM.ECC_CNT_UNCORR n))
  let (m, t) := if reader = .mergeRead then t.freeWord else (BitVec.ofNat 48 (readerMaster reader), t)
  let t := (t.record 0x31 4 (t.reg (Pg.hbm n + 0x110)).toNat (2 * m.toNat + n)).raise (Pg.hbm n) 1
  if reader = .mergeRead then dropEntry (pcOf (32 * beat)) beat t
  else scanMarks (32 * beat) reader (distrust reader 0 t)

/-- The merge read whose second read was good completes its entry (R423). -/
def mergeAgain (beat : Nat) (reader : Reader) (s : State) : State :=
  match s.wqEntry beat with
  | some e => if reader = .mergeRead ∧ e.mask ≠ fullMask then mergeEntry (pcOf (32 * beat)) e s else s
  | none => s

/-- HBM_REREAD_DONE (R360): the second read of a failing beat is clean or correctable and is used, or the beat is poisoned. A correction on the die
counts here too (R359). -/
def execHbmRereadDone (flips : BitVec 266) (report : Reread) (reader : Reader) (s : State) : Out :=
  finish s <|
    let beat := report.beat.toNat
    let n := pcOf (32 * beat) / 32
    if s.inService = false ∨ beat ∉ s.rereads then s
    else
      let t := { s with rereads := s.rereads.erase beat }
      let t := if report.onDie then t.satFld (HBM.ECC_AUX_ONDIE_CORR n) else t
      if report.onDieBad ∨ Store.at s.poison false beat then poisonBeat beat flips reader t
      else match beatVerdict (setBits 266 flips.toNat) with
        | .bad => poisonBeat beat flips reader t
        | .clean => mergeAgain beat reader (hbmLast 3 (32 * beat) (t.satFld (HBM.ECC_AUX_REREAD_OK n)))
        | .fixed i => mergeAgain beat reader (hbmLast 3 (32 * beat) ((hbmCorrected beat i flips t).satFld (HBM.ECC_AUX_REREAD_OK n)))

end Sys2Proof.Machine
end

