-- ==== Sys2Proof/Machine/Admission.lean ====
section
/-!
DEFINITION. Machine/Admission.lean: what a start, a commit or a Span change is checked against: admission limits (R15, R16, R287, R341),
ranges of D and rate (R4, R258, R282, R283, R340), the floor check (R304), the region grid (R331, R333) and the service checks
(R366, R389, R409 to R411, R443, R445). Every check reads a candidate state: one in which the new values are already in effect.
-/
namespace Sys2Proof.Machine

/-! ### Admission (R15, R16, R23, R287, R341) -/

/-- The admission limit of a Span in pixel/s (R16). -/
def spanLimit (target : Nat) (ctu32 : Bool) : Rat :=
  if target = 0 then 31850496000
  else if target = 1 then 25480396800
  else if ctu32 then 22295347200 else 27869184000

/-- The limit that a channel start meets now (R16, R22, R23, R287). -/
def State.startLimit (s : State) : Rat :=
  if s.fld DSP.SPAN_STAT_THERMAL = 1 then spanLimit 2 (s.fld DSP.SPAN_STAT_CTU32 = 1)
  else if s.span.pending then spanLimit s.span.target s.span.ctu32
  else spanLimit (s.fld DSP.SPAN_STAT_CURRENT) (s.fld DSP.SPAN_STAT_CTU32 = 1)

/-- Pixels per second of a slot (R16). -/
def State.slotPixels (s : State) (slot : Nat) : Rat :=
  let p := pixelRate (s.size slot) (s.rate slot)
  (p.1 : Rat) / (p.2 : Rat)

/-- The sum over the running slots. -/
def State.runningPixels (s : State) : Rat :=
  (((List.range 8).filter (fun n => s.slotRuns n)).map s.slotPixels).foldl (fun (a b : Rat) => a + b) 0

/-- Bays in dispatch. -/
def State.bayCount (s : State) : Nat := ((List.range 16).filter (bitAt (s.fld ARCC.BAYS_AVAILABLE))).length

/-- Whether a slot may start (R16, R287). -/
def State.admits (s : State) (slot : Nat) : Bool :=
  decide (s.runningPixels + s.slotPixels slot ≤ s.startLimit * (s.bayCount : Rat) / 16)

/-- MZE engines in dispatch. -/
def State.engineCount (s : State) : Nat := ((List.range 8).filter (fun n => s.fld (MZE.STAT_STATE n) ≤ 1)).length

/-- Coded pixels per second of a mezzanine output. -/
def State.mzRate (s : State) (o : Nat) : Rat :=
  ((s.mzWidth (outSlot o) * s.mzHeight (outSlot o) : Nat) : Rat) / pictureSeconds (s.rate (outSlot o))

/-- The running mezzanine outputs. -/
def State.mzRunning (s : State) : List Nat := s.running.filter isMezz

/-- Whether the engines carry the running mezzanine outputs of the candidate state (R341 step 5). -/
def State.mzCapacity (s : State) (engines : Nat) : Bool :=
  let sum := (s.mzRunning.map s.mzRate).foldl (fun (a b : Rat) => a + b) 0
  let full : Rat := if s.fld DSP.SPAN_STAT_CURRENT = 2 then 28800000000 else 38400000000
  decide (sum ≤ full * (engines : Rat) / 8)

/-! ### Ranges (R4, R258, R282, R283, R340) -/

/-- D_max of R4 for a picture of `lines` lines. -/
def dMax (lines : Nat) (ctu32 : Bool) : Nat := (2 * lines + 64) / ctuHeight ctu32

/-- The smallest D of a contribution or proxy output. -/
def dMin (ctu32 : Bool) : Nat := if ctu32 then 3 else 4

/-- The highest contribution rate in kb/s (R258). -/
def State.highestKbps (s : State) (slot : Nat) : Nat :=
  if s.fld (STC.CODEC_CODEC slot) = 0 ∧ s.fld (STC.CODEC_CHROMA slot) = 0 then 800000 else 1200000

/-- Step 3 of R304: rate, cap and D in their ranges. -/
def State.rangesHold (s : State) (o : Nat) (ctu32 : Bool) : Bool :=
  let d := s.outD o
  let dOk := decide (dMin ctu32 ≤ d ∧ d ≤ dMax (s.outLines o) ctu32)
  if isProxy o then
    let r := s.fld (STC.PROXY_OUT_RATE_KBPS (outSlot o))
    dOk && decide (2000 ≤ r ∧ r ≤ 50000)
  else
    let r := s.floorKbps o
    let top := s.highestKbps (outSlot o)
    let cap := 1000 * s.fld (STC.OUT_CAP_MBPS (o / 16) (o % 16))
    dOk && decide (20000 ≤ r ∧ r ≤ top) && (s.fld (STC.OUT_POOLED (o / 16) (o % 16)) = 0 || decide (r ≤ cap ∧ cap ≤ top))

/-- Step 4 of R304 and R306: the pool takes the member. -/
def State.poolTakes (s : State) (o : Nat) : Bool :=
  if isProxy o ∨ s.fld (STC.OUT_POOLED (o / 16) (o % 16)) = 0 then true
  else
    let g := s.fld (STC.OUT_POOL (o / 16) (o % 16))
    s.fld (DSP.POOL_EN g) = 1 && decide (s.floorSum g ≤ s.fld (DSP.POOL_RATE_KBPS g))
      && (s.members g).all (fun m => s.rate (outSlot m) = s.rate (outSlot o))

/-! ### The floor check (R304) -/

/-- The interval before the launch of stripe `k` (R300), in seconds. -/
def State.launchInterval (s : State) (o k : Nat) (ctu32 : Bool) : Rat :=
  let p := s.stripeSeconds o ctu32
  if k = 0 then pictureSeconds (s.rate (outSlot o)) - ((s.outStripes o ctu32 - 1 : Nat) : Rat) * p else p

/-- The fill after each stripe of the opening picture stays within the bucket. -/
def openingFits (rate size : Rat) (interval : Nat → Rat) (f : Nat → Rat) : Nat → Nat → Rat → Bool
  | 0, _, _ => true
  | n + 1, k, fill =>
    let x := max 0 (fill - rate * interval k) + f k
    decide (x ≤ size) && openingFits rate size interval f n (k + 1) x

/-- Step 5 of R304 from a fill of `f0`. -/
def State.floorCheck (s : State) (o : Nat) (ctu32 : Bool) (size f0 : Rat) : Bool :=
  let n := s.outCtus o ctu32
  let a := s.allowance (outSlot o) ctu32
  let band := min n (ceilDiv n (max 1 (s.gdrOf o)))
  let rate : Rat := if isProxy o then (s.drain o : Rat) else ((1000 * s.floorKbps o : Nat) : Rat)
  let run := band * a + (n - band) * 16 + 16384
  let shortest := min (s.launchInterval o 0 ctu32) (s.launchInterval o 1 ctu32)
  decide ((run : Rat) ≤ rate * shortest) &&
    openingFits rate size (fun k => s.launchInterval o k ctu32)
      (fun k => ((n * a + (if k = 0 then 16384 else 256) : Nat) : Rat)) (s.outStripes o ctu32) 0 f0

/-! ### Mezzanine outputs (R331, R333, R337, R340) -/

/-- Whether the grid and the ratio hold (R331, R333). -/
def State.gridHolds (s : State) (o : Nat) : Bool :=
  let slot := outSlot o
  let rows := s.mzRows o
  let cols := s.mzCols o
  let w := s.mzWidth slot
  let h := s.mzHeight slot
  let bits := if s.mz444 slot then 36 else 20
  let b := s.fld (STC.MZOUT_BPP_X16 slot (s.outSub o))
  decide (rows ≤ 32 ∧ cols ≤ 32 ∧ 8 * bits ≤ 10 * b ∧ 2 * b ≤ 16 * bits) &&
    (List.range cols).all (fun j => decide (240 ≤ gridX w cols (j + 1) - gridX w cols j)) &&
    (List.range rows).all (fun i => decide (135 ≤ gridY h rows (i + 1) - gridY h rows i))

/-- D_MIN of R340; 511 where no D of the field suffices. -/
def State.mzDMin (s : State) (o : Nat) (ctu32 : Bool) : Nat :=
  let slot := outSlot o
  let p := s.stripeSeconds o ctu32 * 1000000
  let largest := ((List.range (stripesOf (s.lines slot) ctu32)).map (fun k => s.mzPixels slot (s.outSub o) k ctu32)).foldl max 0
  let e : Rat := (mzBound largest : Rat) / 900
  let r : Rat := if s.fld (PAF.MZE_COPY_EN slot) = 0 then p + 14 else p * 3 / 2 - 1
  (((List.range 512).drop 1).find? (fun d => decide (r + e + 2 ≤ ((d + 1 : Nat) : Rat) * p))).getD 511

/-- Whether a frame of service `v` carries a tag, in bytes (R390). -/
def State.tagBytes (s : State) (v : Nat) : Nat := 4 * s.fld (SHP.SVC_CFG_VLAN_EN (v / 32) (v % 32))

/-- The entry of a region in the active map of a mezzanine output. -/
def State.mapEntry (s : State) (o r : Nat) : Nat := nth (Store.at s.maps [] (mapKey (outSlot o) (s.outSub o) 0)) r 0

/-- Whether a map entry is enabled, and its queue (R342). -/
def entryOn (e : Nat) : Bool := e / 2 ^ 31 % 2 = 1
def entryQueue (e : Nat) : Nat := e / 65536 % 8192

/-- Wire bytes that the region in row `i`, column `j` carries in the band of stripe `k` (R337). -/
def State.regionBand (s : State) (o i j k : Nat) (ctu32 : Bool) : Nat :=
  let e := s.mzRowSpan o i
  let n := sliceCount (e.2 - e.1)
  let m := s.mapEntry o (s.regionOf o i j)
  let extra := 82 + (if entryOn m then s.tagBytes (s.serviceOf (entryQueue m)) else 0)
  (((s.slicesOf (outSlot o) (s.outSub o) k ctu32).filter (fun x => x.1 = i)).map (fun x =>
    let b := s.sliceSize o i j x.2
    b + ceilDiv b 1400 * extra + (if x.2 = 0 then s.fld (STC.MZSTAT_HDR_BYTES (outSlot o) (s.outSub o)) + extra else 0)
      + (if x.2 + 1 = n then 38 else 0))).foldl (· + ·) 0

/-- The regions of a mezzanine output that its active map enables, as (row, column). -/
def State.regionsOn (s : State) (o : Nat) : List (Nat × Nat) :=
  (((List.range (s.mzRows o)).map (fun i => (List.range (s.mzCols o)).map (fun j => (i, j)))).flatten).filter (fun e =>
    entryOn (s.mapEntry o (s.regionOf o e.1 e.2)))

/-- The output's band rate in bit/s (R337). -/
def State.bandRate (s : State) (o : Nat) (ctu32 : Bool) : Rat :=
  let all := ((List.range (s.mzRows o)).map (fun i => (List.range (s.mzCols o)).map (fun j =>
    (List.range (stripesOf (s.lines (outSlot o)) ctu32)).map (fun k => s.regionBand o i j k ctu32)))).flatten.flatten
  (8 * all.foldl max 0 : Nat) / s.stripeSeconds o ctu32

/-- 8 x the most wire bytes that an output's regions on service `v` carry in one band, divided by P (R409). -/
def State.bandOnService (s : State) (o v : Nat) (ctu32 : Bool) : Rat :=
  let rs := (s.regionsOn o).filter (fun e => s.serviceOf (entryQueue (s.mapEntry o (s.regionOf o e.1 e.2))) = v)
  let most := ((List.range (stripesOf (s.lines (outSlot o)) ctu32)).map (fun k =>
    (rs.map (fun e => s.regionBand o e.1 e.2 k ctu32)).foldl (· + ·) 0)).foldl max 0
  (8 * most : Nat) / s.stripeSeconds o ctu32

/-! ### What uses queues and services (R389, R409) -/

/-- What feeds egress: an output, or a send flow of ST 2110-30. -/
inductive Sender
  | out (o : Nat)
  | flow (f : Nat)
deriving DecidableEq, Repr

/-- One queue as a sender uses it: the queue, its kind (1 coded video, 2 region, 3 audio), its REQ in bit/s and its longest frame on the
wire in bytes (R409, R410, R443). -/
structure QueueUse where
  queue   : Nat
  kind    : Nat
  req     : Rat
  longest : Nat
deriving DecidableEq, Repr

/-- The ST 302M rate of an output (R445). -/
def State.st302 (s : State) (o h : Nat) : Rat :=
  if s.fld (ASM.OD2_AUD_PID o) = 0 then 0
  else
    let f := pictureSeconds (s.rate (outSlot o))
    let n := (48000 * f).ceil.toNat
    (8 * 188 * ceilDiv (18 + 7 * s.fld (AUDC.TS_CFG_PAIRS o) * n) 184 : Nat) / f * ((1316 + h : Nat) : Rat) / 1316

/-- REQ of a contribution or proxy output (R409). -/
def State.codedReq (s : State) (o : Nat) (ctu32 : Bool) : Rat :=
  let h := 78 + s.tagBytes (s.serviceOf (s.fld (ASM.OD3_QUEUE o)))
  let drain : Rat := s.drain o
  let p := s.stripeSeconds o ctu32
  let f := pictureSeconds (s.rate (outSlot o))
  if s.mode o = 1 then
    let m := s.fld (ASM.OD0_PAYLOAD_MAX o)
    drain * ((m + h : Nat) : Rat) / ((m - 3 : Nat) : Rat) + ((16 * h : Nat) : Rat) / p + ((8 * (9 * h + 36) : Nat) : Rat) / f
  else
    let a := if s.fld (ASM.OD2_ANC_PID o) = 0 then 0 else 18048
    drain * ((1316 + h : Nat) : Rat) / 1288 + ((8 * (196 + h) : Nat) : Rat) / p + ((8 * (578 + 2 * h + a) : Nat) : Rat) / f + s.st302 o h

/-- The CTU size of the Span in force. -/
def State.ctuNow (s : State) : Bool := s.fld DSP.SPAN_STAT_CTU32 = 1

/-- The CTU size at an output's start, of which its REQ is computed (R409). -/
def State.ctuAtStart (s : State) (o : Nat) : Bool := (s.out o).reqCtu

/-- Bytes after UDP of a send flow's packets, and its packet time in seconds. -/
def State.flowBytes (s : State) (f : Nat) : Nat := 3 * s.fld (AUDC.TX_CFG_COUNT f) * s.fld (AUDC.TX_CFG_PTIME_SMP f)
def State.flowTime (s : State) (f : Nat) : Rat := (s.fld (AUDC.TX_CFG_PTIME_SMP f) : Rat) / (s.audioHz : Rat)

/-- The queues of a sender in the candidate state. -/
def State.usesOf (s : State) : Sender → List QueueUse
  | .flow f =>
    let q := s.fld (AUDC.TX_CFG_QUEUE f)
    let h := 78 + s.tagBytes (s.serviceOf q)
    [⟨q, 3, ((8 * (h + s.flowBytes f) : Nat) : Rat) / s.flowTime f, s.flowBytes f + h⟩]
  | .out o =>
    if isMezz o then
      let rate := s.bandRate o (s.ctuAtStart o)
      (s.regionsOn o).map (fun e =>
        let q := entryQueue (s.mapEntry o (s.regionOf o e.1 e.2))
        ⟨q, 2, rate, 1442 + 78 + s.tagBytes (s.serviceOf q)⟩)
    else
      let q := s.fld (ASM.OD3_QUEUE o)
      let h := 78 + s.tagBytes (s.serviceOf q)
      [⟨q, 1, s.codedReq o (s.ctuAtStart o), if s.mode o = 1 then s.fld (ASM.OD0_PAYLOAD_MAX o) + h + 36 else 1316 + h⟩]

/-- The running send flows. -/
def State.flowsRunning (s : State) : List Nat := (List.range 32).filter (fun f => s.fld (AUDC.TX_CFG_RUN f) = 1)

/-- Every running sender. -/
def State.senders (s : State) : List Sender := s.running.map Sender.out ++ s.flowsRunning.map Sender.flow

/-- REQ of a service among some senders in bit/s (R409). -/
def State.serviceReq (s : State) (l : List Sender) (v : Nat) : Rat :=
  (l.map (fun x => match x with
    | .out o => if isMezz o then s.bandOnService o v (s.ctuAtStart o)
        else (((s.usesOf x).filter (fun u => s.serviceOf u.queue = v)).map QueueUse.req).foldl (fun (a b : Rat) => a + b) 0
    | .flow _ => (((s.usesOf x).filter (fun u => s.serviceOf u.queue = v)).map QueueUse.req).foldl (fun (a b : Rat) => a + b) 0)).foldl
      (fun (a b : Rat) => a + b) 0

/-- The services of a sender. -/
def State.servicesOf (s : State) (x : Sender) : List Nat := ((s.usesOf x).map (fun u => s.serviceOf u.queue)).eraseDups

/-- The ports on which a service sends. -/
def State.portsOf (s : State) (v : Nat) : List Nat := ((List.range 2).filter (fun p => s.svcOn v p)).map (fun p => s.svcPort v p)

/-! ### The service checks (R366, R389, R410) -/

/-- Whether two nonzero PIDs of a descriptor are equal. -/
def pidsClash (l : List Nat) : Bool := hasTwice (l.filter (fun x => x ≠ 0))

/-- R366, and R444 for an output with AUD_PID. -/
def State.descriptorHolds (s : State) (o : Nat) : Bool :=
  let m := s.mode o
  let pid (x : Nat) : Bool := decide (0x10 ≤ x ∧ x ≤ 0x1FFE)
  let pmt := s.fld (ASM.OD1_PMT_PID o)
  let video := s.fld (ASM.OD1_VIDEO_PID o)
  let sl := s.fld (ASM.OD1_SEAL_PID o)
  let anc := s.fld (ASM.OD2_ANC_PID o)
  let aud := s.fld (ASM.OD2_AUD_PID o)
  let pt := s.fld (ASM.OD1_PT o)
  let max' := s.fld (ASM.OD0_PAYLOAD_MAX o)
  if isMezz o then m = 2 && decide (96 ≤ pt ∧ pt ≤ 127)
  else if m = 1 then decide (256 ≤ max' ∧ max' ≤ 8960 ∧ 96 ≤ pt ∧ pt ≤ 127)
  else if m = 0 then
    pid pmt && pid video && pid sl && (anc = 0 || pid anc) && (aud = 0 || pid aud) && !pidsClash [pmt, video, sl, anc, aud]
      && (aud = 0 || (decide (s.fld (AUDC.TS_CFG_PAIRS o) ≠ 0) && s.fld AUDC.CFG_RATE = 0))
  else false

/-- The binding check of R410. -/
def State.bindingHolds (s : State) (x : Sender) : Bool :=
  (s.usesOf x).all (fun u => s.fld (QUE.CFG_EN (u.queue / 1024) (u.queue % 1024)) = 1 && decide (u.queue < 8188)
    && (s.portsOf (s.serviceOf u.queue) != [])) && (match x with
  | .out o => s.descriptorHolds o
  | .flow _ => true)

/-- R389: no queue of the sender is another's, and no service mixes kinds. -/
def State.queuesFree (s : State) (x : Sender) : Bool :=
  let mine := s.usesOf x
  let others := ((s.senders.filter (fun y => y ≠ x)).map s.usesOf).flatten
  mine.all (fun u => others.all (fun w =>
    decide (u.queue ≠ w.queue) && (decide (s.serviceOf u.queue ≠ s.serviceOf w.queue) || u.kind = w.kind))) &&
  mine.all (fun u => mine.all (fun w => decide (s.serviceOf u.queue ≠ s.serviceOf w.queue) || u.kind = w.kind))

/-- The share of a list's cycle in which a class is open. -/
def GateList.openShare (g : GateList) (c : Nat) : Rat :=
  ((((g.segs.filter (fun e => bitAt e.1 c)).map (fun e => e.2.2 - e.2.1)).foldl (· + ·) 0 : Nat) : Rat) / ((max 1 g.cycle : Nat) : Rat)

/-- The rate of a port in bit/s by its speed (R186). -/
def State.portRate (s : State) (x : Nat) : Rat := 400000000000 / ((2 ^ s.fld (LANE.CFG_SPEED x) : Nat) : Rat)

/-- The REQ that the services of class `c` of port `x` carry. -/
def State.classReq (s : State) (l : List Sender) (x c : Nat) : Rat :=
  let vs := ((l.map s.servicesOf).flatten.eraseDups).filter (fun v => s.svcTc v = c && decide (x ∈ s.portsOf v))
  (vs.map (s.serviceReq l)).foldl (fun (a b : Rat) => a + b) 0

/-- A list leaves class `c` of port `x` open long enough for its REQ (R410). -/
def State.shareHolds (s : State) (l : List Sender) (x c : Nat) (g : GateList) : Bool := decide (s.classReq l x c ≤ s.portRate x * g.openShare c)

/-- Class `c` of port `x` carries the REQ of its services, under the oper list and a pending one (R410). -/
def State.classHolds (s : State) (l : List Sender) (x c : Nat) : Bool :=
  decide (s.classReq l x c ≤ ((1000 * s.fld (SHP.CLS_RATE_KBPS x c) : Nat) : Rat)) && decide (s.classReq l x c ≤ s.portRate x)
    && ((s.port x).oper.toList ++ (s.port x).next.toList).all (s.shareHolds l x c)

/-- The longest frame fits the class's longest window in a list (R406, R410). -/
def State.windowHolds (s : State) (x c longest : Nat) (g : GateList) : Bool :=
  fitsIn (((longest * 2 ^ s.fld (LANE.CFG_SPEED x) : Nat) : Rat) / 50) (g.longest c)

/-- Bytes of memory that the running senders may hold (R410, R443). -/
def State.memoryNeed (s : State) (l : List Sender) : Rat :=
  (l.map (fun x =>
    let req := ((s.usesOf x).map QueueUse.req).foldl (fun (a b : Rat) => a + b) 0
    match x with
    | .out o =>
      let w := if isMezz o then 0 else bucketWindow (s.outD o) s.ctuNow
      req * ((s.outD o + w + 2 : Nat) : Rat) * s.stripeSeconds o s.ctuNow / 8
    | .flow f => req * ((s.fld (AUDC.TX_TIME_DELAY f) : Rat) / (s.audioHz : Rat) + 2 * s.flowTime f) / 8)).foldl (fun (a b : Rat) => a + b) 0

/-- The rate, class and window checks of R410 for one sender among those running. A window is one of the oper list (R406). -/
def State.ratesHold (s : State) (l : List Sender) (x : Sender) : Bool :=
  (s.usesOf x).all (fun u =>
    let v := s.serviceOf u.queue
    decide (u.req ≤ ((1000 * s.fld (QUE.SHAPE_RATE_KBPS (u.queue / 1024) (u.queue % 1024)) : Nat) : Rat)) &&
    (s.portsOf v).all (fun p => (s.port p).oper.toList.all (s.windowHolds p (s.svcTc v) u.longest))) &&
  (s.servicesOf x).all (fun v =>
    decide (s.serviceReq l v ≤ ((1000 * s.fld (SHP.SVC_SHAPE_RATE_KBPS (v / 32) (v % 32)) : Nat) : Rat)) &&
    (s.portsOf v).all (fun p => s.classHolds l p (s.svcTc v)))

/-- The classes that a sender's services use, each as (port, class). -/
def State.classesOf (s : State) (x : Sender) : List (Nat × Nat) :=
  ((s.servicesOf x).map (fun v => (s.portsOf v).map (fun p => (p, s.svcTc v)))).flatten

/-- Whether two senders share a shaper or a class (R410): queues are never shared. -/
def State.shares (s : State) (x y : Sender) : Bool :=
  (s.servicesOf x).any (fun v => decide (v ∈ s.servicesOf y)) || (s.classesOf x).any (fun c => decide (c ∈ s.classesOf y))

/-- The memory check of R410: 264 MiB. -/
def State.memoryHolds (s : State) : Bool := decide (s.memoryNeed s.senders ≤ 276824064)

/-- Step 6 of R304 and R341, step 3 of R442: the candidate state already counts the sender among those running. -/
def State.serviceChecks (s : State) (x : Sender) : Code :=
  if s.bindingHolds x = false then .decodeError
  else if s.queuesFree x = false then .busy
  else if s.senders.all (fun y => (y ≠ x && !s.shares x y) || s.ratesHold s.senders y) ∧ s.memoryHolds then .ok
  else .busy

/-- Whether R410 holds for a running sender itself. -/
def State.senderHolds (s : State) (x : Sender) : Bool := s.bindingHolds x && s.ratesHold s.senders x

/-- R411: whether a write that makes `t` of `s` makes R410 fail for no running sender. What failed before it the write does not make fail. -/
def State.allHold (s t : State) : Bool :=
  t.senders.all (fun x => t.senderHolds x || !s.senderHolds x) && (t.memoryHolds || !s.memoryHolds)

/-- Step 5 of R402: whether R410 holds under a new list of port `x` for every running sender of the port. -/
def State.listHolds (s : State) (x : Nat) (g : GateList) : Bool :=
  s.senders.all (fun y => (s.usesOf y).all (fun u =>
    let v := s.serviceOf u.queue
    decide (x ∉ s.portsOf v) || (s.shareHolds s.senders x (s.svcTc v) g && s.windowHolds x (s.svcTc v) u.longest g)))

/-- Whether a running sender uses a queue or a service (R411). -/
def State.queueUsed (s : State) (q : Nat) : Bool := s.senders.any (fun x => (s.usesOf x).any (fun u => u.queue = q))
def State.serviceUsed (s : State) (v : Nat) : Bool := s.senders.any (fun x => decide (v ∈ s.servicesOf x))

/-! ### The checks of a start in their order (R304, R341) -/

/-- R304 for output `o` of the candidate state; its slot's STATE is that of now. -/
def State.startCheck (s : State) (o : Nat) : Code :=
  let slot := outSlot o
  let ctu32 := s.ctuNow
  if isProxy o ∧ s.fld (PAF.PROXY_EN slot) = 0 then .busy
  else if isProxy o = false ∧ substreamsOf (s.size slot) ≤ s.outSub o then .decodeError
  else if s.fld (CHIN.STAT_STATE slot) ≠ 2 then .busy
  else if s.rangesHold o ctu32 = false then .decodeError
  else if s.poolTakes o = false then .busy
  else if s.floorCheck o ctu32 (s.bucketSize o ctu32) 0 = false then .busy
  else s.serviceChecks (.out o)

/-- R341 for mezzanine output `o` of the candidate state. -/
def State.mzStartCheck (s : State) (o : Nat) : Code :=
  let slot := outSlot o
  let ctu32 := s.ctuNow
  let d := s.outD o
  if substreamsOf (s.size slot) ≤ s.outSub o then .decodeError
  else if s.mzRows o = 0 ∨ s.mzCols o = 0 then .ok
  else if s.gridHolds o = false ∨ d < 1 ∨ dMax (s.lines slot) ctu32 < d then .decodeError
  else if s.fld (CHIN.STAT_STATE slot) ≠ 2 ∨ d < s.mzDMin o ctu32 ∨ Store.at s.maps [] (mapKey slot (s.outSub o) 0) = [] then .busy
  else if s.mzCapacity s.engineCount = false then .busy
  else s.serviceChecks (.out o)

/-! ### Bindings shown (R389, R409) -/

/-- SVC_STAT of a service: REQ, the kind of its queues and how many are bound. WAKE AUTO resolves when its first queue is bound (R398). -/
def showService (v : Nat) (s : State) : State :=
  let us := ((s.senders.map s.usesOf).flatten).filter (fun u => s.serviceOf u.queue = v)
  let kind := match us.head? with
    | some u => u.kind
    | none => 0
  let first := decide (s.fld (SHP.SVC_STAT_BOUND (v / 32) (v % 32)) = 0 ∧ us ≠ [])
  let s := if first then { s with svcs := Store.put s.svcs {} v { Store.at s.svcs {} v with paced := decide (2 ≤ kind) } } else s
  let t := s.setFld (SHP.SVC_STAT_REQ_KBPS (v / 32) (v % 32)) ((s.serviceReq s.senders v / 1000).ceil.toNat)
  (t.setFld (SHP.SVC_STAT_KIND (v / 32) (v % 32)) kind).setFld (SHP.SVC_STAT_BOUND (v / 32) (v % 32)) us.length

/-- The host's queues among a sender's uses: system queues stay bound as they are (R388). -/
def hostQueues (l : List QueueUse) : List QueueUse := l.filter (fun u => u.queue < 8188)

/-- Bindings change from `old` to `new`: queues no longer used are unbound, the others show their kind and REQ, and the counters of a queue newly
bound begin anew (R412). -/
def bindQueues (old new : List QueueUse) (s : State) : State :=
  let t := ((hostQueues old).filter (fun u => new.all (fun w => w.queue ≠ u.queue))).foldl (fun t u =>
    (t.setFld (QUE.STAT_KIND (u.queue / 1024) (u.queue % 1024)) 0).setFld (QUE.STAT_REQ_KBPS (u.queue / 1024) (u.queue % 1024)) 0) s
  (hostQueues new).foldl (fun t u =>
    let n := u.queue / 1024
    let q := u.queue % 1024
    let t := if old.any (fun w => w.queue = u.queue) then t
      else ((t.setFld (QUE.FRAMES_COUNT n q) 0).setFld (QUE.LATE_LAUNCH_LATE n q) 0).setFld (QUE.LATE_TOO_LONG n q) 0
    (t.setFld (QUE.STAT_KIND n q) u.kind).setFld (QUE.STAT_REQ_KBPS n q) ((u.req / 1000).ceil.toNat)) t

/-- A started sender's queues are bound; its services follow. -/
def bindSender (x : Sender) (s : State) : State := (s.servicesOf x).foldl (fun t v => showService v t) (bindQueues [] (s.usesOf x) s)

/-- A stopped sender's queues are unbound: `was` is the state in which it still ran, `s` the one after its stop. -/
def unbindSender (x : Sender) (was s : State) : State :=
  (was.servicesOf x).foldl (fun t v => showService v t) (bindQueues (was.usesOf x) [] s)

/-- A running sender's bindings follow a change of its queues between `was` and `s` (R343). -/
def rebindSender (x : Sender) (was s : State) : State :=
  (was.servicesOf x ++ s.servicesOf x).eraseDups.foldl (fun t v => showService v t) (bindQueues (was.usesOf x) (s.usesOf x) s)

end Sys2Proof.Machine
end

