-- ==== Sys2Proof/Machine/Span.lean ====
section
/-!
DEFINITION. Machine/Span.lean: Span requests, the search for a Span boundary, the thermal move and the boundary itself (spec 01 R15 to R24).
-/
namespace Sys2Proof.Machine

/-- The first whole nanosecond at or after an instant. -/
def wholeNs (t : Nat) : Nat := ceilDiv t Config.unitsPerNs * Config.unitsPerNs

/-- The search of R18 from the candidate instant `t`: every slot's next grid point lies within 125 µs of it, or the search goes on at the
first whole nanosecond for which the farthest one does. -/
def findBoundary (rates : List Nat) : Nat → Nat → Option Nat
  | 0, _ => none
  | fuel + 1, t =>
    let far := (rates.map (fun r => gridAt r (gridFrom r t))).foldl max 0
    if far < t + ns 125000 then some t else findBoundary rates fuel (wholeNs (far - ns 125000 + 1))

/-- The first Span boundary at least 1 ms from now (R18). A slot that waits for the boundary itself (R23) takes no part in the search. Every
picture rate repeats against every other within 1,001 s, so the 2,000,000 candidates tried cover every case. -/
def State.spanBoundary (s : State) : Option Nat :=
  let rates := ((List.range 8).filter (fun n => s.slotRuns n && !(s.slot n).waits)).map s.rate
  findBoundary rates 2000000 (wholeNs (s.ctr + ns 1000000))

/-- Whether a boundary lies within 10 s of now (R18). -/
def State.withinTen (s : State) (t : Nat) : Bool := decide (t ≤ s.ctr + 10 * Config.unitsPerSec)

/-- SPAN_TIME reads a boundary. -/
def showSpanTime (t : Nat) (s : State) : State := (s.setFld DSP.SPAN_TIME_SEC_LO (secOf t)).setFld DSP.SPAN_TIME_NS (nsOf t)

/-- A change is pending until its boundary. -/
def pendSpan (target : Nat) (ctu32 thermal : Bool) (boundary : Option Nat) (s : State) : State :=
  let t := { s with span := { s.span with pending := true, boundary := boundary, target := target, ctu32 := ctu32, thermal := thermal } }
  let t := (t.setFld DSP.SPAN_STAT_PENDING 1).setFld DSP.SPAN_STAT_PENDING_TARGET target
  match boundary with
  | some b => showSpanTime b t
  | none => t

/-- A slot waits no longer; it begins at `b` or after (R23). -/
def unwait (b : Nat) (s : State) (n : Nat) : State :=
  let r := s.slot n
  if r.waits then s.setSlot n { r with waits := false, startCtr := max r.startCtr b } else s

/-- No change is pending; the slots that waited for it begin at `b` or after. -/
def unpendSpan (b : Nat) (s : State) : State :=
  let t := (List.range 8).foldl (unwait b) s
  { t with span := { t.span with pending := false, boundary := none, thermal := false } }.setFld DSP.SPAN_STAT_PENDING 0

/-- The D of an output after a change of CTU size; none where it is no whole number (R17, R19). -/
def convertD (d : Nat) (from32 to32 : Bool) : Option Nat :=
  if from32 = to32 then some d else if to32 then some (2 * d) else if d % 2 = 0 then some (d / 2) else none

/-- An output's D replaced, in effect and in its shadow copy (R17). -/
def setOutD (o d : Nat) (s : State) : State :=
  if o < 128 then (s.setFld (STC.OUT_D (o / 16) (o % 16)) d).setShFld (STC.OUT_D (o / 16) (o % 16)) d
  else if o < 136 then (s.setFld (STC.PROXY_OUT_D (o - 128)) d).setShFld (STC.PROXY_OUT_D (o - 128)) d
  else (s.setFld (STC.MZOUT_D ((o - 136) / 16) ((o - 136) % 16)) d).setShFld (STC.MZOUT_D ((o - 136) / 16) ((o - 136) % 16)) d

/-- The Span in force and every running output's D changed (R17, R21). An output started with an odd D while a change to 64 x 64 CTUs was pending
has no whole D in the new Span: the spec does not say what happens, and its D stays (DESIGN CHOICE, log entry 83). -/
def changeSpan (target : Nat) (ctu32 : Bool) (s : State) : State :=
  let old := s.ctuNow
  let t := s.running.foldl (fun u o =>
    match convertD (s.outD o) old ctu32 with
    | some d => setOutD o d u
    | none => u) s
  (t.setFld DSP.SPAN_STAT_CURRENT target).setFld DSP.SPAN_STAT_CTU32 (b2n ctu32)

/-- Whether a running output stays valid under a new CTU size (R19 step 4, R305, R341): `new` is the state with the change applied. -/
def State.dPossible (s new : State) (ctu32 : Bool) (o : Nat) : Bool :=
  match convertD (s.outD o) s.ctuNow ctu32 with
  | none => false
  | some d =>
    if isMezz o then decide (s.mzDMin o ctu32 ≤ d)
    else decide (dMin ctu32 ≤ d) &&
      (ctu32 = s.ctuNow || new.floorCheck o ctu32 (new.bucketSize o ctu32) (s.bucketSize o s.ctuNow))

/-- A refused Span request: BUSY with its REASON (R19). -/
def refuseSpan (reason : Nat) (s : State) : State × Code := (s.setFld DSP.SPAN_STAT_REASON reason, .busy)

/-- A host's Span request (R19). -/
def spanRequest (target : Nat) (quietCtu : Bool) (s : State) : State × Code :=
  let ctu32 := if target = 0 then false else if target = 1 then true else quietCtu
  let new := changeSpan target ctu32 s
  if s.fld DSP.SPAN_STAT_THERMAL = 1 then refuseSpan 5 s
  else if s.span.pending then refuseSpan 4 s
  else if target = s.fld DSP.SPAN_STAT_CURRENT ∧ ctu32 = s.ctuNow then (s, .ok)
  else if s.running.all (s.dPossible new ctu32) = false then refuseSpan 1 s
  else if spanLimit target ctu32 < s.runningPixels then refuseSpan 2 s
  else match s.spanBoundary with
    | some b => if s.withinTen b then (pendSpan target ctu32 false (some b) s, .ok) else refuseSpan 3 s
    | none => refuseSpan 3 s

/-- A thermal move to `target` at the present CTU size (R22): nothing moves where that Span is in force. -/
def thermalMove (target : Nat) (s : State) : State :=
  if s.fld DSP.SPAN_STAT_CURRENT = target then s else pendSpan target s.ctuNow true s.spanBoundary s

/-- The throttle is entered in service (R22): a pending host request is withdrawn with REASON THERMAL. A move to Quiet Span still pending
goes on; a return still pending gives way, and the device stays in the Quiet Span it has not yet left (DEDUCED, log entry 83). A slot that waited
for the withdrawn boundary may begin at once: that the move pending from this cycle makes it wait on is not said (DESIGN CHOICE, log entry 83). -/
def throttleSpan (s : State) : State :=
  let t := s.setFld DSP.SPAN_STAT_THERMAL 1
  if t.span.pending ∧ t.span.thermal then
    (if t.span.target = 2 then t else thermalMove 2 (unpendSpan t.ctr t))
  else
    let t := if t.span.pending then (unpendSpan t.ctr t).setFld DSP.SPAN_STAT_REASON 5 else t
    thermalMove 2 t

/-- The throttle is released in service (R22): the device returns to the last Span the host set. A move still pending completes first. -/
def releaseSpan (s : State) : State :=
  let t := s.setFld DSP.SPAN_STAT_THERMAL 0
  if t.span.pending then t else thermalMove t.span.host t

/-- The search repeated from now for a pending change (R23); a host request that finds no boundary within 10 s is withdrawn. R23 gives both
limits after a host step as counted from the step; after a slot's stop, it says only that the search is repeated from the stop, and the
10 s are counted from there as well (DESIGN CHOICE, log entry 28). -/
def researchSpan (s : State) : State :=
  if s.span.pending = false then s
  else
    let b := s.spanBoundary
    let ok := match b with
      | some t => s.withinTen t
      | none => false
    if s.span.thermal = false ∧ ok = false then (unpendSpan s.ctr s).setFld DSP.SPAN_STAT_REASON 3
    else pendSpan s.span.target s.span.ctu32 s.span.thermal b s

/-- The edge on which ENG_CLK left the frequency `hz` (R21); those of the last second are kept, longer than any task runs. -/
def noteEdge (hz : Nat) (s : State) : State :=
  if s.engHz = hz then s
  else { s with span := { s.span with edges := (s.cyc, hz) :: s.span.edges.filter (fun e => decide (s.cyc < e.1 + msCyc 1000)) } }

/-- SPAN_BOUNDARY (R17, R21, R22): the pending change takes effect at its boundary. -/
def execSpanBoundary (s : State) : Out :=
  finish s <|
    match s.span.boundary with
    | none => s
    | some b =>
      if s.inService = false ∨ s.span.pending = false ∨ s.ctr < b then s
      else
        let r := s.span
        let t := noteEdge s.engHz ((changeSpan r.target r.ctu32 (unpendSpan b s)).raise Pg.dsp 1)
        let t := if r.thermal then t else { t with span := { t.span with host := r.target } }
        if r.thermal ∧ t.fld DSP.SPAN_STAT_THERMAL = 0 then thermalMove t.span.host t else t

end Sys2Proof.Machine
end

