-- ==== Sys2Proof/Machine/Power.lean ====
section
/-!
DEFINITION. Machine/Power.lean: rails, RESET_N, heat, warm and cold resets (spec 02 R32 to R47, 20 R469 to R472).
-/
namespace Sys2Proof.Machine

/-! ### Fuses interrupted (R84) -/

/-- One OTP bit blown. -/
def blowBit (m : Store (BitVec 32)) (b : Nat) : Store (BitVec 32) :=
  Store.put m 0 (b / 32) (BitVec.ofNat 32 (orBit (Store.at m 0 (b / 32)).toNat (b % 32)))

/-- The fuses as they stand: of a programming in progress, the bits whose 100 µs have passed are blown (R84). -/
def State.otpNow (s : State) : Store (BitVec 32) :=
  match s.sec.fuse with
  | none => s.otp
  | some j => (j.bits.take ((s.cyc - j.start) / usCyc 100)).foldl blowBit s.otp

/-- An OTP word. -/
def State.otpWord (s : State) (w : Nat) : Nat := (Store.at s.otpNow 0 w).toNat

/-- Fuse programming is cut off: the bits whose 100 µs have passed are blown (R84). -/
def cutFuse (s : State) : State := { s with otp := s.otpNow, sec := { s.sec with fuse := none } }

/-! ### Warm and cold resets (R469 to R472) -/

/-- Registers that a warm reset keeps (R98, R470, R472, R482): KPR's, the PCIe endpoint's and its lanes', the time counter's increment and
the frequency it stands for, BOOT.STAT. -/
def warmStays (key : Nat) : Bool :=
  let a := key % 0x1000000
  a / 0x1000 = 0x1 || a / 0x1000 = 0x108 || (0x120 ≤ a / 0x1000 && a / 0x1000 < 0x128) || a = PTP.INCR_INCR.key % 0x1000000
    || a = PTP.FREQ_ADJ_PPB.key || a = 0x2050

/-- Retired bays and engines stay out of service through a warm reset (R286, R472), and frozen masters stay frozen (R153). -/
def keepRetired (old s : State) : State :=
  let t := s.setFld ARCC.BAYS_RETIRED (old.fld ARCC.BAYS_RETIRED)
  let t := (List.range 16).foldl (fun u n => showBay n u) t
  (List.range 8).foldl (fun u n =>
    if old.fld (MZE.STAT_STATE n) = 4 then u.setFld (MZE.STAT_STATE n) 4 else mzeIdle n u) t

/-- Every drain ends with the reset: a master whose violation waited for the end of its drain is frozen (R147, R153). -/
def freezeWaiting (s : State) : State :=
  (List.range 31).foldl (fun t m =>
    if (s.master m).freezeAt then
      (t.setFld KPR.FRZ_STAT_FROZEN (orBit (t.fld KPR.FRZ_STAT_FROZEN) m)).record 0x11 (freezeEvent m).2 (t.reg 0x5050).toNat (t.reg 0x5058).toNat
    else t) s

/-- An accepted warm reset (R470): every output stops, every circuit outside the keeper domain and the PCIe endpoint is reset, memory
contents and images are lost, and READY is COLD. -/
def warmReset (byWdog : Bool) (s : State) : State :=
  let u := freezeWaiting (cutFuse s)
  let t := dropUnits { u with
    regs := resetRegs warmStays true u.regs, ready := .cold, hbm := [], gallery := [], engineCode := [], timeCode := [], poison := []
    badWords := [], wbacks := [], pcs := [], lanes := [], masters := [], boot := {}, sec := {}, hif := u.hif }
  let t := hifReset t
  let t := keepRetired s (t.setReg 0x1058 0)
  let t := (t.wrapFld KPR.RESET_STAT_WARMS).setFld KPR.RESET_STAT_LAST 1
  t.setFld KPR.RESET_STAT_BY_WDOG (b2n byWdog)

/-- An accepted cold reset (R471): outputs stop, core and HBM power are removed and the endpoint is reset; what R472 keeps stays. `last`
is 2 by command, 3 by RESET_N. Above 95 °C it is held (R45). -/
def coldReset (last : Nat) (s : State) : State :=
  let u := cutFuse s
  let hot := decide (95 < s.pwr.junction)
  let stays (key : Nat) : Bool := keyPage key = 0x1 || key = PTP.INCR_INCR.key || key = PTP.FREQ_ADJ_PPB.key
  let t := dropUnits { u with
    regs := resetRegs stays false u.regs, attnGen := 0, ready := .cold, hbm := [], gallery := [], engineCode := [], timeCode := []
    poison := [], badWords := [], wbacks := [], pcs := [], lanes := [], masters := [], boot := {}, sec := {}, hif := {}, pci := {}
    clk := { u.clk with rootPll := false }
    pwr := { u.pwr with core := false, coldAt := some u.cyc, coldHeld := hot, badMain := 0, badAux := 0 }
    pins := { u.pins with mclkOut := false } }
  let t := (t.setReg 0x1058 0).setReg 0x1108 (resetValue 0x1108)
  let t := t.setFld KPR.FRZ_STAT_FROZEN 0
  let t := (t.wrapFld KPR.RESET_STAT_COLDS).setFld KPR.RESET_STAT_LAST last
  (t.setFld KPR.RESET_STAT_BY_WDOG 0).setFld KPR.RESET_STAT_HELD (b2n hot)

/-- Step 4 of R32: the regulators bring up the core and HBM rails while both rails are in tolerance and RESET_N is high (R35); control
core 0 leaves reset in COLD, and the link enters Detect (R58). -/
def powerUp (s : State) : State :=
  if s.pwr.aux ∧ s.pwr.auxOut = false ∧ s.pwr.main ∧ s.pwr.mainOut = false ∧ s.pins.resetN ∧ s.pwr.coldAt = none ∧ s.pwr.core = false
      ∧ s.fld KPR.THERM_STAT_TRIPPED = 0 ∧ s.fld KPR.THERM_STAT_RAIL_FAULT = 0 then
    { s with
      ready := .cold
      pwr := { s.pwr with core := true }
      clk := { s.clk with rootPll := true }
      hif := { s.hif with lanesOn := true } }
  else s

/-- A write of KPR.RESET (R469). -/
def resetRequest (confirm kind : Nat) (s : State) : State × Code :=
  if confirm ≠ 0xB007 then (s, .decodeError)
  else if kind = 1 then
    if s.fld KPR.THERM_STAT_TRIPPED = 1 ∨ s.fld KPR.THERM_STAT_RAIL_FAULT = 1 ∨ s.pwr.coldAt.isSome ∨ s.pwr.core = false then (s, .busy)
    else (warmReset false s, .ok)
  else if kind = 2 then (if s.pwr.coldAt.isSome then (s, .busy) else (coldReset 2 s, .ok))
  else (s, .decodeError)

/-- COLD_RESET_RESUME (R45, R471 step 3): 10 ms have passed, RESET_N is high and any hold has ended;
THERM_TRIP_N rises (R44) and power returns. TRIPPED and RAIL_FAULT read 1 until here: at which instant of a cold reset they clear the
spec does not say (DESIGN CHOICE, log entry 80). -/
def execColdResetResume (s : State) : Out :=
  finish s <|
    match s.pwr.coldAt with
    | none => s
    | some c =>
      if s.pwr.aux ∧ s.pins.resetN ∧ s.pwr.coldHeld = false ∧ c + msCyc 10 ≤ s.cyc then
        let t := { s with pwr := { s.pwr with coldAt := none }, pins := { s.pins with tripN := true } }
        powerUp ((t.setFld KPR.THERM_STAT_TRIPPED 0).setFld KPR.THERM_STAT_RAIL_FAULT 0)
      else s

/-! ### Rails and pins (R32 to R38) -/

/-- THERM_STAT's temperature fields: the latest sample, and zero while RESET_N is low (R39). SITE is taken as one of the temperature fields: the
text does not name them (DESIGN CHOICE, log entry 82). -/
def showTemps (s : State) : State :=
  let show' (x : Nat) : Nat := if s.pins.resetN then x else 0
  let t := (s.setFld KPR.THERM_STAT_HBM1_C (show' (unsignedOf 8 s.pwr.stack1))).setFld KPR.THERM_STAT_HBM0_C (show' (unsignedOf 8 s.pwr.stack0))
  (t.setFld KPR.THERM_STAT_DIE_MAX_C (show' (unsignedOf 8 s.pwr.junction))).setFld KPR.THERM_STAT_SITE (show' s.pwr.site)

/-- A sequencing fault (R35): 1 VIN_MAIN before VIN_AUX, 2 VIN_MAIN late. -/
def sequenceFault (detail us : Nat) (s : State) : State := (s.record 0x01 1 detail us).raise Pg.kpr 3

/-- VIN_AUX_RISE (R32 step 1): VIN_AUX enters tolerance and the keeper domain leaves power-on reset; VIN_MAIN already in tolerance is a
sequencing fault (R35). -/
def execVinAuxRise (s : State) : Out :=
  finish s <|
    if s.pwr.aux then s
    else
      let t := { s with pwr := { s.pwr with aux := true, auxOut := false, auxAt := s.cyc }, clk := { s.clk with keeperPll := true } }
      powerUp (if t.pwr.main then sequenceFault 1 ((t.cyc - t.pwr.mainAt) / Config.cyclesPerUs) t else t)

/-- VIN_MAIN_RISE (R32 step 2): VIN_MAIN enters tolerance; more than 200 ms after VIN_AUX it is a sequencing fault (R35). -/
def execVinMainRise (s : State) : Out :=
  finish s <|
    if s.pwr.main ∧ s.pwr.mainOut = false then s
    else
      let t := { s with pwr := { s.pwr with main := true, mainOut := false, mainAt := s.cyc } }
      powerUp (if t.pwr.aux ∧ t.pwr.auxAt + msCyc 200 < t.cyc then sequenceFault 2 ((t.cyc - t.pwr.auxAt) / Config.cyclesPerUs) t else t)

/-- RESET_N_RISE (R32 steps 3 and 4). -/
def execResetNRise (s : State) : Out :=
  finish s <| if s.pins.resetN then s else powerUp (showTemps { s with pins := { s.pins with resetN := true } })

/-- RESET_N_LOW (R36): RESET_N is low for `ns`: below 100 ns it is ignored, from 1 µs on it is a cold reset, between the two whether it
is one is a free value. -/
def execResetNLow (ns : Nat) (s : State) : Out :=
  finish s <|
    if s.pwr.aux = false then (if 1000 ≤ ns then { s with pins := { s.pins with resetN := false } } else s)
    else if s.pins.resetN = false ∨ ns < 100 then s
    else if 1000 ≤ ns then showTemps (coldReset 3 { s with pins := { s.pins with resetN := false } })
    else
      let (b, t) := s.freeBool
      if b then coldReset 3 t else t

/-- VIN_AUX_LOSS (R37, R472): the keeper domain itself enters power-on reset and everything but the fuses is lost, the attention generation
included. -/
def execVinAuxLoss (s : State) : Out :=
  .next { State.reset with
    otp := (cutFuse s).otp, host := s.host, cyc := s.cyc, free := s.free
    pins := { State.reset.pins with resetN := s.pins.resetN, perstN := s.pins.perstN }
    pwr := { State.reset.pwr with main := s.pwr.main, mainAt := s.pwr.mainAt }
    pending := s.pending }

/-- VIN_MAIN_LOSS (R34, R35): VIN_MAIN leaves tolerance with RESET_N low. With RESET_N high and the regulators enabled R37 applies in its
place: core power stays until its comparisons find the rail out, and no regulator is enabled again while it is. -/
def execVinMainLoss (s : State) : Out :=
  finish s <|
    if s.pins.resetN ∧ s.pwr.core then { s with pwr := { s.pwr with mainOut := true } }
    else { s with pwr := { s.pwr with main := false, core := false }, clk := { s.clk with rootPll := false } }

/-- Core and HBM power are removed; the PCIe endpoint and the keeper keep theirs. -/
def coreOff (s : State) : State :=
  { cutFuse s with
    pwr := { s.pwr with core := false, badMain := 0, badAux := 0 }, clk := { s.clk with rootPll := false }
    pins := { s.pins with mclkOut := false }
    hbm := [], gallery := [], engineCode := [], timeCode := [], poison := [], badWords := [], wbacks := [], pcs := [] }

/-- The mean of the samples of a rail quantity. Which way a remainder rounds, and what is shown while fewer than ten samples exist, the
spec does not say: truncated, over the samples there are (DESIGN CHOICE, log entry 81). -/
def meanOf (l : List Nat) : Nat := l.foldl (· + ·) 0 / max 1 l.length

/-- KPR.RAIL_STAT: the mean of the last ten samples. -/
def showRails (s : State) : State :=
  let l := s.pwr.rails
  let t := (s.setFld KPR.RAIL_STAT_MAIN_MV (meanOf (l.map (·.mainMv)))).setFld KPR.RAIL_STAT_MAIN_DA (meanOf (l.map (·.mainDa)))
  (t.setFld KPR.RAIL_STAT_AUX_MV (meanOf (l.map (·.auxMv)))).setFld KPR.RAIL_STAT_AUX_CA (meanOf (l.map (·.auxCa)))

/-- A rail fault (R37): core power goes, READY is HALTED; `mainOk` is whether VIN_MAIN met its tolerance in this sample. -/
def railFault (mainOk : Bool) (s : State) : State :=
  let t := s.record 0x02 5 (s.reg 0x1110).toNat 0
  let t := (t.setFld KPR.THERM_STAT_RAIL_FAULT 1).raise Pg.kpr 2
  coreOff (halt { t with pwr := { t.pwr with main := mainOk } })

/-- RAIL_CHECK: every sample of the rails moves RAIL_STAT, in whatever state (R460, R483). While RESET_N is high and the regulators are
enabled, both rails are compared with the tolerance of R53, and two bad comparisons in a row of VIN_MAIN, or of VIN_AUX above 0.80 V, are a
rail fault (R37). The tolerance of both also gates the regulators (R35). -/
def execRailCheck (mainMv mainDa auxMv auxCa : Nat) (s : State) : Out :=
  finish s <|
    if s.pwr.aux = false then s
    else
      let mainOk := decide (1746 ≤ mainMv ∧ mainMv ≤ 1854)
      let auxOk := decide (873 ≤ auxMv ∧ auxMv ≤ 927)
      let t := showRails { s with pwr := { s.pwr with
        auxOut := !auxOk, mainOut := s.pwr.main && !mainOk, rails := (⟨mainMv, mainDa, auxMv, auxCa⟩ :: s.pwr.rails).take 10 } }
      if s.pwr.core = false ∨ s.pins.resetN = false then powerUp t
      else
        let t := { t with pwr := { t.pwr with
          badMain := if mainOk then 0 else s.pwr.badMain + 1
          badAux := if auxOk ∨ auxMv ≤ 800 then 0 else s.pwr.badAux + 1 } }
        if 2 ≤ t.pwr.badMain ∨ 2 ≤ t.pwr.badAux then railFault mainOk t else t

/-- PCIE_PERST_N_CHANGE (R38, R98): low holds the endpoint in reset; it has no other effect. -/
def execPciePerstNChange (high : Bool) (s : State) : Out :=
  finish s <|
    let t := { s with pins := { s.pins with perstN := high } }
    if high then t else if s.pwr.aux then pcieLinkLost (pcieReset t) else t

/-! ### Heat (R39 to R46) -/

/-- The highest of the die sensors, and the sensor that gave it. Of several with the same highest reading the spec names none: the
lowest-numbered is taken (DESIGN CHOICE, log entry 82). -/
def hottest (die : Vector (BitVec 8) 16) : Int × Nat :=
  (die.toList.zipIdx).foldl (fun (m : Int × Nat) e => if m.1 < e.1.toInt then (e.1.toInt, e.2) else m) (die[0].toInt, 0)

/-- A run of samples: one more while the condition holds, ended by a sample that does not meet it. -/
def runOn (met : Bool) (n : Nat) : Nat := if met then n + 1 else 0

/-- THERMAL_SAMPLE (R39 to R46): the temperatures are shown and the runs of samples toward throttle, release and trip move on, each
tested against the thresholds in force. The keeper samples whatever the level of RESET_N (R460). -/
def execThermalSample (die : Vector (BitVec 8) 16) (hbm0 hbm1 : BitVec 8) (s : State) : Out :=
  finish s <|
    if s.pwr.aux = false then s
    else
      let (j, site) := hottest die
      let stack := max hbm0.toInt hbm1.toInt
      let on : Int := s.fld KPR.THERM_CFG_THROTTLE_ON_C
      let hyst : Int := s.fld KPR.THERM_CFG_HYST_C
      let t := if s.pwr.coldHeld ∧ j ≤ 95 then
          { s with pwr := { s.pwr with coldHeld := false } }.setFld KPR.RESET_STAT_HELD 0
        else s
      let t := { t with pwr := { t.pwr with
        junction := j, site := site, stack0 := hbm0.toInt, stack1 := hbm1.toInt
        hotRun := runOn (decide (on ≤ j)) s.pwr.hotRun
        hotStack := runOn (decide (95 ≤ stack)) s.pwr.hotStack
        coolRun := runOn (decide (j ≤ on - hyst ∧ stack ≤ 90)) s.pwr.coolRun
        tripRun := runOn (decide (115 ≤ j)) s.pwr.tripRun
        tripStack := runOn (decide (105 ≤ stack)) s.pwr.tripStack } }
      (showTemps t).setFld KPR.THERM_STAT_HBM_HOT (b2n (decide (85 < stack)))

/-- The entry condition of R40 holds: 100 samples in a row of the die, or of the stacks. -/
def State.heats (s : State) : Bool := decide (100 ≤ s.pwr.hotRun ∨ 100 ≤ s.pwr.hotStack)

/-- The trip condition of R43 holds: two samples in a row of the die, or of the stacks. -/
def State.trips (s : State) : Bool := decide (2 ≤ s.pwr.tripRun ∨ 2 ≤ s.pwr.tripStack)

/-- THROTTLE_ENTRY (R40, R22): 100 samples in a row met a threshold; a trip on the same sample prevails (R43). -/
def execThrottleEntry (s : State) : Out :=
  finish s <|
    if s.pwr.aux ∧ s.fld KPR.THERM_STAT_THROTTLE = 0 ∧ s.heats ∧ s.trips = false then
      let t := (s.setFld KPR.THERM_STAT_THROTTLE 1).raise Pg.kpr 0
      if t.inService then throttleSpan t else t
    else s

/-- THROTTLE_RELEASE (R41, R22): 10 s of samples at or below the release thresholds. -/
def execThrottleRelease (s : State) : Out :=
  finish s <|
    if s.pwr.aux ∧ s.fld KPR.THERM_STAT_THROTTLE = 1 ∧ 1000000 ≤ s.pwr.coolRun then
      let t := s.setFld KPR.THERM_STAT_THROTTLE 0
      if t.inService then releaseSpan t else t
    else s

/-- THERMAL_TRIP (R43, R44): two samples in a row at a trip threshold; THERM_TRIP_N falls, core and HBM power go, READY is HALTED. -/
def execThermalTrip (s : State) : Out :=
  finish s <|
    if s.pwr.aux ∧ s.trips ∧ s.fld KPR.THERM_STAT_TRIPPED = 0 then
      let t := s.record 0x03 5 (s.reg 0x1100).toNat 0
      let t := (t.setFld KPR.THERM_STAT_TRIPPED 1).raise Pg.kpr 1
      coreOff (halt { t with pins := { t.pins with tripN := false } })
    else s

/-! ### Watchdogs (R464 to R466) -/

/-- Whether a control core runs (R465, R466). -/
def State.coreRuns (s : State) (c : Nat) : Bool := !bitAt (s.fld KPR.WDOG_STAT_EXPIRED) c

/-- WATCHDOG_PROGRESS (R464). -/
def execWatchdogProgress (core : Fin 4) (s : State) : Out :=
  finish s <|
    if s.inService ∧ s.coreRuns core.val then
      { s with kpr := { s.kpr with progress := Store.put s.kpr.progress 0 core.val s.cyc } }
    else s

/-- WATCHDOG_EXPIRY (R464 to R466): a core's period ends without a signal; one in the same cycle prevails. The core stops, records are
written, and a warm reset follows when WDOG_CFG.WARM is 1. -/
def execWatchdogExpiry (core : Fin 4) (signal : Bool) (s : State) : Out :=
  finish s <|
    let c := core.val
    let last := Store.at s.kpr.progress 0 c
    if s.inService = false ∨ s.coreRuns c = false ∨ s.cyc < last + msCyc (s.fld KPR.WDOG_CFG_TIMEOUT_MS) then s
    else if signal then { s with kpr := { s.kpr with progress := Store.put s.kpr.progress 0 c s.cyc } }
    else
      let t := s.record 0x05 7 c ((s.cyc - last) / Config.cyclesPerUs)
      let t := coreStop c ((t.satFld KPR.WDOG_STAT_EXPIRIES).record 0x40 7 c 0)
      if t.fld KPR.WDOG_CFG_WARM = 1 then warmReset true t else t

/-- PPS_OUT_FALL (R47, R162): PPS_OUT has been high for 1 ms. -/
def execPpsOutFall (s : State) : Out :=
  finish s <| if s.pins.ppsOut ∧ s.pins.ppsAt + msCyc 1 ≤ s.cyc then { s with pins := { s.pins with ppsOut := false } } else s

end Sys2Proof.Machine
end

