-- ==== Sys2Proof/Machine/Fabric.lean ====
section
/-!
DEFINITION. Machine/Fabric.lean: the Concourse's masters, permission masks, freezes, drains and thaws (spec 05 R127 to R153). A burst
completes within the command that causes it; how many are outstanding at an instant is a free value (log entry 12).
-/
namespace Sys2Proof.Machine

/-! ### Addresses and masks (R129, R139) -/

/-- What a fabric address names: a BAR0 address, an HBM address, a Gallery offset; none for the default target (R129). -/
inductive FabTarget
  | page (addr : Nat)
  | hbm (addr : Nat)
  | gallery (off : Nat)
  | none
deriving DecidableEq, Repr

/-- The target of a fabric address; register space holds only the registers of the pages (R137), KPR on catwalks alone (R149). -/
def fabTarget (a : Nat) : FabTarget :=
  if a < 0x800000000 then .hbm a
  else if a < 0x804000000 then .gallery (a - 0x800000000)
  else if 0x900000000 ≤ a ∧ a < 0x901000000 then
    let b := a - 0x900000000
    match pageOf b with
    | some (p, _) => if b % 8 = 0 ∧ (regAt p.kind (b % 0x1000)).isSome ∧ b / 0x1000 ≠ 1 then .page b else .none
    | none => .none
  else .none

/-- The directory index of the page at a BAR0 address. -/
def indexOf (addr : Nat) : Nat :=
  match pageOf addr with
  | some (p, n) => p.index + n
  | none => 0

/-- The page masks of a master as one field (R139). -/
def pageMask (m k : Nat) : Fld := ⟨0x5100 + 0x40 * m + 8 * k, 0, 48⟩

/-- Whether a master's masks permit an access (R139); the PCIe port's page mask restricts its writes only (R141). -/
def State.permits (s : State) (m : Nat) (write : Bool) : FabTarget → Bool
  | .page addr => (m = 28 && !write) || bitAt (s.fld (pageMask m (indexOf addr / 48))) (indexOf addr % 48)
  | .hbm addr => bitAt (s.fld (if write then FAB.M_HBM_WRITE m else FAB.M_HBM_READ m)) (addr / 2 ^ 31)
  | .gallery off => bitAt (s.fld (if write then FAB.M_GAL_WRITE m else FAB.M_GAL_READ m)) (off / 2 ^ 22)
  | .none => true

/-- Bits `lo` to `hi` - 1. -/
def ones (lo hi : Nat) : Nat := 2 ^ hi - 2 ^ lo

/-- Whether the firmware's masks give master `m` the page at a directory index (R145). -/
def firmwarePage (m idx : Nat) : Bool :=
  if m < 16 then idx = 125 + m
  else if m < 24 then idx = 158 + (m - 16)
  else if m = 24 then 45 ≤ idx ∧ idx < 117
  else if m = 25 then 117 ≤ idx ∧ idx < 125
  else if m = 26 then 175 ≤ idx ∧ idx < 193
  else if m = 27 then 166 ≤ idx ∧ idx < 175
  else if m = 28 then idx ≠ 0 ∧ idx ≠ 5
  else if m = 29 then true
  else idx = 7

/-- The 48 mask bits of register k of a master. -/
def firmwareMask (m k : Nat) : Nat :=
  (List.range 48).foldl (fun a b => if 48 * k + b < 202 ∧ firmwarePage m (48 * k + b) then a + 2 ^ b else a) 0

/-- HBM regions a master may read and write (R145). -/
def firmwareHbm (m : Nat) : Nat × Nat :=
  if m < 27 then (ones 0 16, ones 0 15) else if m = 27 then (0, 0) else if m = 28 then (ones 0 16, 2 ^ 15)
  else if m = 29 then (ones 0 16, ones 0 16) else (ones 0 16, 0)

/-- Gallery bank groups a master may read and write (R145). -/
def firmwareGal (m : Nat) : Nat × Nat :=
  if m < 16 then (ones 3 9 + ones 11 14, ones 3 9 + ones 11 14) else if m < 24 then (ones 9 13, ones 9 13)
  else if m = 24 then (ones 0 3 + 2 ^ 13, ones 0 3 + 2 ^ 13) else if m = 25 ∨ m = 27 then (2 ^ 13, 2 ^ 13)
  else if m = 26 then (ones 11 14, ones 11 14) else if m = 28 then (0, 0)
  else if m = 29 then (ones 0 16, ones 0 16) else (ones 0 16, 0)

/-- The loaded firmware sets every mask at the last INIT step (R145). -/
def setMasks (s : State) : State :=
  (List.range 31).foldl (fun t m =>
    let t := (List.range 5).foldl (fun u k => u.setFld (pageMask m k) (firmwareMask m k)) t
    let t := (t.setFld (FAB.M_HBM_READ m) (firmwareHbm m).1).setFld (FAB.M_HBM_WRITE m) (firmwareHbm m).2
    (t.setFld (FAB.M_GAL_READ m) (firmwareGal m).1).setFld (FAB.M_GAL_WRITE m) (firmwareGal m).2) s

/-! ### Responses (R134 to R138) -/

/-- The default target answers a request of master `m` at fabric address `a` (R137). -/
def dfltHit (m a : Nat) (s : State) : State :=
  let t := (s.satFld FAB.DFLT_STAT_COUNT).setFld FAB.DFLT_STAT_MASTER m
  countError m ((t.setFld FAB.DFLT_ADDR_ADDR a).raise Pg.fab 0)

/-- DEFAULT_HIT (R137). -/
def execDefaultHit (master : Fin 31) (addr : BitVec 36) (s : State) : Out :=
  finish s <| if s.issues master.val then dfltHit master.val addr.toNat s else s

/-- A target has not responded within 2 µs (R135). In a drain the transaction is no longer outstanding (R146). -/
def fabTimeout (m id a : Nat) (s : State) : State :=
  let r := s.master m
  let t := if r.draining then s.setMaster m { r with outstanding := r.outstanding - 1 } else s
  countError m ((t.record 0x10 4 (id * 256 + m) a).raise Pg.fab 3)

/-- FAB_TIMEOUT (R135). -/
def execFabTimeout (master : Fin 31) (id : Fin 64) (addr : BitVec 36) (s : State) : Out :=
  finish s <| if s.pwr.core ∧ s.isHalted = false then fabTimeout master.val id.val addr.toNat s else s

/-! ### Freezes (R142, R143) -/

/-- The tasks of the unit and floor path beside a bay that freezes: an assembly task returns to its slot at level 0, a synthesis to the
queue by deadline. -/
def unitLoss (n : Nat) (s : State) : State :=
  let s := match s.runningOn .assembly n with
    | some (i, _) => (enterLevel i 0 s).setFld (EAU.STAT_ASM_BUSY n) 0
    | none => s
  match s.floors.find? (fun e => e.1 = n) with
  | none => s
  | some (_, f) =>
    match s.task f.task with
    | none => s
    | some t =>
      let later (k : Nat) : Bool := match s.task k with
        | some x => decide (x.dead ≤ t.dead)
        | none => true
      { s with floors := s.floors.erase n, floorQ := s.floorQ.takeWhile later ++ [f.task] ++ s.floorQ.dropWhile later }.setFld
        (EAU.STAT_FLOOR_BUSY n) 0

/-- FAB.VIOL_STAT and VIOL_ADDR record a violation. -/
def noteViolation (m : Nat) (kind : ViolKind) (write : Bool) (a : Nat) (s : State) : State :=
  let k := match kind with
    | .page => 0
    | .hbm => 1
    | .gallery => 2
  let t := ((s.satFld FAB.VIOL_STAT_COUNT).setFld FAB.VIOL_STAT_WRITE (b2n write)).setFld FAB.VIOL_STAT_KIND k
  (t.setFld FAB.VIOL_STAT_MASTER m).setFld FAB.VIOL_ADDR_ADDR a

/-- Master `m` is frozen after a violation that VIOL_STAT holds (R142, R143); bays and MZE engines leave dispatch. -/
def freeze (m : Nat) (s : State) : State :=
  let t := s.setFld KPR.FRZ_STAT_FROZEN (orBit (s.fld KPR.FRZ_STAT_FROZEN) m)
  let t := t.record 0x11 (freezeEvent m).2 (t.reg 0x5050).toNat (t.reg 0x5058).toNat
  let t := t.raise Pg.fab (freezeEvent m).1
  if m < 16 then settle (unitLoss m (showBay m (engineLoss m t)))
  else if m < 24 then settle (mzeAbandon (m - 16) t)
  else t

/-- A violation by master `m` (R142, R143, R147): refused by a master reset's drain, it freezes once that drain ends; else the PCIe port's
writes freeze it and its reads only count, and an on-chip master is frozen and drained. In the drain of a retired bay, which issues nothing
itself, the violation is that of the unit or floor path beside it (R128). -/
def violate (m : Nat) (kind : ViolKind) (write : Bool) (a : Nat) (s : State) : State :=
  if m = 28 ∧ write = false then countError m s
  else
    let t := countError m (noteViolation m kind write a s)
    if s.inReset m ∧ (s.master m).bayOnly = false then t.setMaster m { t.master m with freezeAt := true }
    else if m = 28 then freeze m t
    else drain m {} (freeze m t)

/-- MASTER_VIOLATION (R140, R142, R143): a request that decodes and lies outside its master's masks, from READY onward (R145). -/
def execMasterViolation (master : Fin 31) (kind : ViolKind) (write : Bool) (addr : BitVec 36) (s : State) : Out :=
  finish s <|
    let m := master.val
    let target := fabTarget addr.toNat
    let fits : Bool := match kind, target with
      | .page, .page _ => true
      | .hbm, .hbm _ => true
      | .gallery, .gallery _ => true
      | _, _ => false
    let stalls := (s.frozen m && !s.inReset m) || ((s.master m).draining && !(s.master m).byReset)
    if s.inService = false ∨ fits = false ∨ s.permits m write target ∨ stalls then s
    else violate m kind write addr.toNat s

/-! ### Drains and thaws (R146, R147, R152) -/

/-- A master reset of `m` begins (R147). -/
def masterReset (m : Nat) (s : State) : State := drain m { s.master m with byReset := true, bayOnly := false } s

/-- Master `m` is released (R152): a bay or MZE engine returns to dispatch. -/
def unfreeze (m : Nat) (s : State) : State :=
  let t := s.setFld KPR.FRZ_STAT_FROZEN (clearBit (s.fld KPR.FRZ_STAT_FROZEN) m)
  if m < 16 then settle (showBay m t) else if m < 24 then settle (showMze (m - 16) t) else t

/-- The bases of the pages that own a master (R127). -/
def ownedPages (m : Nat) : List Nat :=
  if m < 16 then [Pg.bay m] else if m < 24 then [Pg.mze (m - 16)] else if m = 24 then (List.range 8).map Pg.chin
  else if m = 25 then (List.range 8).map Pg.paf else if m = 26 then [Pg.asm] else if m = 27 then [Pg.dsp]
  else if m = 28 then [Pg.hif] else if m = 29 then [Pg.fab] else [Pg.chk]

/-- DRAIN_DONE (R146, R147, R112): every response of a drain has returned, each MRESET or FROZEN and counted as such (FAB.Mm_STAT.ERRORS); a
SOFT_RESET is done, a thaw with RESET releases, a violation in the drain freezes. -/
def execDrainDone (master : Fin 31) (s : State) : Out :=
  finish s <|
    let m := master.val
    let r := s.master m
    if r.draining = false then s
    else
      let t := (s.setMaster m {}).satFld (FAB.M_STAT_ERRORS m) r.outstanding
      let t := if r.byReset then (ownedPages m).foldl (fun u b => u.setFld (PG_CTRL_SOFT_RESET b) 0) t else t
      let t := if r.release then unfreeze m t else t
      if r.freezeAt then freeze m t else t

/-- One frozen master is thawed (R152): RESET drains it first, and is ignored for the PCIe port. -/
def thawOne (reset : Bool) (s : State) (m : Nat) : State :=
  if reset ∧ m ≠ 28 then drain m { byReset := true, release := true } s else unfreeze m s

/-- A write of KPR.THAW with GO set (R152). `m` is 0 to 30, or 31 for every frozen master, which is refused while any of their drains has
not ended. -/
def thaw (m : Nat) (reset : Bool) (s : State) : State × Code :=
  let l := (List.range 31).filter (fun k => s.frozen k && (m = 31 || k = m))
  if l.any (fun k => (s.master k).draining) then (s, .busy) else (l.foldl (thawOne reset) s, .ok)

end Sys2Proof.Machine
end

