-- ==== Sys2Proof/Machine/Gate.lean ====
section
/-!
DEFINITION. Machine/Gate.lean: who may reach which register, the CODE of an access, what a register reads as, and the configuration
measurement (spec 03 R57, R86, 04 R90 to R116, 05 R137 to R151, 20 R468, 22 R474 to R481).
-/
namespace Sys2Proof.Machine

/-! ### What answers (R57, R460, R461, R468) -/

/-- Whether a path reaches the module at all: PCIe in L0, Uasyn with VIN_MAIN present, rings and control cores in service. A request of the
frozen control cores stalls at their port (R142): it has no effect and no reply until its sender finds the cores thawed (log entry 85). -/
def State.reaches (s : State) : Path → Bool
  | .pcie => s.pwr.aux && s.hif.linkUp
  | .uasyn => s.pwr.aux && s.pwr.main
  | .ring => s.inService
  | .core => s.inService && !s.frozen 29

/-- Whether the page at base `b` answers in the present READY state. -/
def State.answers (s : State) (b : Nat) : Bool :=
  b = Pg.kpr || (s.pwr.core && (b = Pg.boot || s.inService || (b = Pg.sec && (s.ready = .quarantine || s.isHalted))))

/-- The page base of a BAR0 address. -/
def baseOf (addr : Nat) : Nat := addr - addr % 0x1000

/-- The register at a BAR0 address, with its page family, instance and number in its array; none where no register lies (R100). -/
def registerAt (addr : Nat) : Option (PageInfo × Nat × RegDesc × Nat) :=
  match pageOf addr with
  | none => none
  | some (p, n) =>
    match regAt p.kind (addr % 0x1000) with
    | none => none
    | some (r, k) => if addr % 8 = 0 then some (p, n, r, k) else none

/-- Whether a field takes a value. -/
def limHolds : Lim → Nat → Bool
  | .any, _ => true
  | .range lo hi, v => decide (lo ≤ v ∧ v ≤ hi)
  | .zeroOr lo hi, v => decide (v = 0 ∨ (lo ≤ v ∧ v ≤ hi))

/-- Whether every field that a write stores takes its value (R7). -/
def RegDesc.accepts (r : RegDesc) (data : Reg) : Bool :=
  r.fields.all (fun f => f.acc = .ro || f.acc = .wo || limHolds f.lim (bitsOf data f.lo f.w))

/-! ### The configuration measurement (R86) -/

/-- One extension of the measurement by an entry. -/
def extend (entry : List Byte) (s : State) : State :=
  { s with sec := { s.sec with measured := sha256 (s.sec.measured ++ sha256 entry), count := (s.sec.count + 1) % 2 ^ 32 } }

/-- Whether a write at an address is measured: an RW or RWS register on a page other than KPR, BOOT, SEC, PMC and CHK. -/
def measuredAt (addr : Nat) : Bool :=
  match registerAt addr with
  | none => false
  | some (p, _, r, _) =>
    p.kind ≠ .kpr && p.kind ≠ .boot && p.kind ≠ .sec && p.kind ≠ .pmc && p.kind ≠ .chk
      && r.fields.any (fun f => f.acc = .rw || f.acc = .rws)

/-- The measurement of an accepted register write: the 8-byte BAR0 address and the 6 data bytes. -/
def measure (addr : Nat) (data : Reg) (s : State) : State := extend (leBytes 8 addr ++ leBytes 6 data.toNat) s

/-! ### CODEs of writes (R101) -/

/-- The register whose next read delivers a write's CODE: SPAN_STAT for SPAN_REQ (R20), BOOT.STAT for GO (R70), SCAN_STAT for SCAN_CTRL
(R384), else the written register. -/
def codeTarget (addr : Nat) : Nat :=
  if addr = 0x700040 then 0x700048 else if addr = 0x2048 then 0x2050 else if addr = 0x7190 then 0x7198 else addr

/-- A CODE kept for the next read of the register at an address. -/
def keepCode (addr : Nat) (c : Code) (s : State) : State :=
  { s with replies := { s.replies with codes := Store.put s.replies.codes 0 addr c.num } }

/-- A BAR0 write completed with a CODE: other than OK it is recorded in PG_STAT and kept (R101). -/
def noteCode (addr : Nat) (c : Code) (s : State) : State :=
  if c = .ok ∨ (pageOf addr).isNone then s
  else
    let b := baseOf addr
    let t := (s.setFld (PG_STAT_WR_CODE b) c.num).setFld (PG_STAT_WR_OFFSET b) (addr % 0x1000 / 8)
    keepCode (codeTarget addr) c t

/-! ### The way of a write -/

/-- The Concourse master that carries a path. -/
def pathMaster : Path → Nat
  | .core => 29
  | _ => 28

/-- What an operation on a register answers: the state after and its CODE. -/
abbrev RegOp := State → State × Code

/-- An operation applied; an accepted write of a measured register extends the measurement (R86). A write that completes with CODE STALE is not
taken as an accepted one: R86 does not say (DESIGN CHOICE, log entry 101). -/
def applied (addr : Nat) (data : Reg) (measured : Bool) (op : RegOp) (s : State) : State × Code :=
  let r := op s
  if r.2 = .ok ∧ measured ∧ s.inService then (measure addr data r.1, .ok) else r

/-- What a write does whose target has not responded within 2 µs: whether it took effect is unknown, a free value; its CODE is BUSY (R134,
R138). -/
def lateWrite (run : RegOp) (s : State) : State × Code :=
  let (took, t) := s.freeBool
  (if took then (run t).1 else t, .busy)

/-- A write over the PCIe port (R57, R99 to R102, R138, R140, R143, R150). A dropped write completes with no CODE; a refused one's is
recorded and kept. In the port's reset a write outside the mask freezes the port once the drain ends (R147). -/
def pcieWrite (addr : Nat) (known : Bool) (run : RegOp) (s : State) : State × Code :=
  let b := baseOf addr
  let note (r : State × Code) : State × Code := (noteCode addr r.2 r.1, r.2)
  let go : RegOp := fun s => note (run s)
  let none' : RegOp := fun s => note (s, .decodeError)
  let outside : Bool := known && !s.permits 28 true (.page addr)
  if s.reaches .pcie = false then (s, .notReady)
  else if b = Pg.kpr then (if known then go s else none' s)
  else if s.frozen 28 then (s, .frozen)
  else if s.answers b = false ∧ s.inService = false then (s, .notReady)
  else if s.inService ∧ s.inReset 28 then
    note (if outside then violate 28 .page true (0x900000000 + addr) s else countError 28 s, .stale)
  else if known = false then none' (dfltHit 28 (0x900000000 + addr) s)
  else if s.inService ∧ outside then note (violate 28 .page true (0x900000000 + addr) s, .permission)
  else go s

/-- A write over the Uasyn link (R57, R107, R144, R151). A refused Span request's CODE waits for the first read of SPAN_STAT (R20). -/
def uasynPathWrite (addr : Nat) (known : Bool) (run : RegOp) (s : State) : State × Code :=
  let b := baseOf addr
  let go : RegOp := fun s =>
    let r := run s
    (if addr = 0x700040 ∧ r.2 = .busy then keepCode (codeTarget addr) r.2 r.1 else r.1, r.2)
  if s.reaches .uasyn = false then (s, .notReady)
  else if b ≠ Pg.kpr ∧ s.answers b = false ∧ s.inService = false then (s, .notReady)
  else if known = false then (s, .decodeError)
  else if s.inService ∧ (b = Pg.dir ∨ b = Pg.fab) then (s, .permission)
  else go s

/-- A write by a command-ring entry (R120, R138, R143): a freeze or mask refuses it and freezes nothing. It is applied under R99 to R103, so its
CODE is recorded and kept as that of a BAR0 write (R101). -/
def ringWrite (addr : Nat) (known : Bool) (run : RegOp) (s : State) : State × Code :=
  let note (r : State × Code) : State × Code := (noteCode addr r.2 r.1, r.2)
  if s.inService = false then (s, .notReady)
  else if s.frozen 28 then (s, .frozen)
  else if baseOf addr = Pg.kpr then note (if known then run s else (s, .decodeError))
  else if s.inReset 28 then note (countError 28 s, .stale)
  else if known = false then note (dfltHit 28 (0x900000000 + addr) s, .decodeError)
  else if s.permits 28 true (.page addr) = false then note (countError 28 s, .permission)
  else note (run s)

/-- Whether an access of the control cores lies outside their mask (R139). -/
def State.coreOutside (s : State) (write known : Bool) (addr : Nat) : Bool :=
  known && decide (baseOf addr ≠ Pg.kpr) && !s.permits 29 write (.page addr)

/-- A write by the control cores (R137, R141, R142, R149): KPR lies on no path of theirs. In the cores' reset one outside their mask freezes them
once the drain ends (R147). -/
def coreWrite (addr : Nat) (known : Bool) (run : RegOp) (s : State) : State × Code :=
  if s.inService = false ∨ s.frozen 29 then (s, .notReady)
  else if s.inReset 29 then
    (if s.coreOutside true known addr then violate 29 .page true (0x900000000 + addr) s else countError 29 s, .stale)
  else if known = false ∨ baseOf addr = Pg.kpr then (dfltHit 29 (0x900000000 + addr) s, .decodeError)
  else if s.permits 29 true (.page addr) = false then (violate 29 .page true (0x900000000 + addr) s, .permission)
  else run s

/-- A write of the register at `addr` with `data` over a path; `known` says that a register lies there, `measured` that R86 counts it. -/
def hostWrite (path : Path) (addr : Nat) (data : Reg) (known measured : Bool) (op : RegOp) (s : State) : State × Code :=
  let run := applied addr data measured op
  match path with
  | .pcie => pcieWrite addr known run s
  | .uasyn => uasynPathWrite addr known run s
  | .ring => ringWrite addr known run s
  | .core => coreWrite addr known run s

/-- One bit of the CRC-8: polynomial x^8 + x^2 + x + 1. -/
def crc8Bit (c : Nat) : Nat := if 128 ≤ c then (2 * c % 256) ^^^ 7 else 2 * c

/-- The CRC-8 of a byte string (R105): initial value 0, no reflection, no final XOR. -/
def crc8 (l : List Byte) : Nat :=
  l.foldl (fun c b => crc8Bit (crc8Bit (crc8Bit (crc8Bit (crc8Bit (crc8Bit (crc8Bit (crc8Bit (c ^^^ b.toNat))))))))) 0

/-- The reply to a request (R106), from START on: START, OP and SEQ, RSW, DATA, CRC-8. How many bytes of 0xFF precede START follows the
host's clock alone (log entry 86). -/
def uasynReply (head : Byte) (rsw : Nat) (data : Reg) : List Byte :=
  let body := [head] ++ beBytes 2 rsw ++ beBytes 6 data.toNat
  [0x5A] ++ body ++ [BitVec.ofNat 8 (crc8 body)]

/-- A reply on the Uasyn link: its RSW and data, and its bytes, which MGT_SDO shows only while it is driven (R49). -/
def answerUasyn (head : Byte) (code : Code) (data : Reg) (t : State) : State :=
  { t with replies := { t.replies with
      rsw := some (t.rsw code), data := data, uasyn := if t.drives then uasynReply head (t.rsw code) data else [] } }

/-- The reply to an access that a command gives as such and not as a frame: of its frame the command names no SEQ, a free value, and no
later frame repeats it (R106, R108; log entry 86). -/
def answerAccess (op : Nat) (code : Code) (data : Reg) (t : State) : State :=
  let (w, u) := t.freeWord
  let v := answerUasyn (BitVec.ofNat 8 (16 * op + w.toNat % 16)) code data u
  { v with replies := { v.replies with lastWrite := none } }

/-- The end of a write by command (R90, R106): on the Uasyn link a reply is formed after it, with the RSW and zero data. -/
def finishWrite (path : Path) (s : State) (r : State × Code) : Out :=
  let t := bump s r.1
  match path with
  | .uasyn => done s (if s.reaches .uasyn then answerAccess 2 r.2 0 t else t)
  | _ => done s t

/-! ### What registers read as -/

/-- The object that a page's windowed registers show (QUEn.SEL, ASM.OD_SEL, PMC.WIN, SEAL.SEL, GATEn.ENT_IDX, HBMn.PC_SEL, AUDC's selects). -/
def State.selected (s : State) (w : Win) (n : Nat) : Nat :=
  match w with
  | .none => 0
  | .que => s.fld (QUE.SEL_INDEX n)
  | .od => s.fld ASM.OD_SEL_OUTPUT
  | .pmc => s.fld PMC.WIN_GROUP
  | .seal => s.fld SEAL.SEL_OUTPUT * 1024 + s.fld SEAL.SEL_REGION
  | .gate => s.fld (GATE.ENT_IDX_INDEX n)
  | .hbm => s.fld (HBM.PC_SEL_PC n)
  | .ch => s.fld AUDC.CH_SEL_INDEX
  | .rx => s.fld AUDC.RX_SEL_FLOW
  | .tx => s.fld AUDC.TX_SEL_FLOW
  | .ts => s.fld AUDC.TS_SEL_OUTPUT

/-- The key of the register at an address, as its window stands. -/
def State.keyAt (s : State) (addr : Nat) (r : RegDesc) (n : Nat) : Nat :=
  if r.win = .none then addr else winKey addr (s.selected r.win n)

/-- The mask of a field within its register. -/
def FieldDesc.mask (f : FieldDesc) : Nat := ones f.lo (f.lo + f.w)

/-- The value of a register with VIEW applied to its RWS fields (PG_SHADOW.VIEW). -/
def viewed (r : RegDesc) (view : Bool) (live shadow : Reg) : Reg :=
  if view then r.fields.foldl (fun v f => if f.acc = .rws then withBits v f.lo f.w (bitsOf shadow f.lo f.w) else v) live else live

/-- Pages in the pending set by directory index (R126). -/
def State.attnPages (s : State) : List Nat := s.pendingSet.map (fun e => indexOf e.1)

/-- HIF.ATTN_SUM (R126). -/
def State.attnSum (s : State) : Nat :=
  (List.range 11).foldl (fun a k => if s.pendingSet.any (fun e => e.1 / 0x100000 = k) then a + 2 ^ k else a) 0

/-- HIF.ATTN_PAGEk (R126). -/
def State.attnPage (s : State) (k : Nat) : Nat :=
  (List.range 48).foldl (fun a b => if decide (48 * k + b ∈ s.attnPages) then a + 2 ^ b else a) 0

/-- CLK.STAT (R155, R157, R183, R189, R203): an LC PLL is locked from the end of CAL to ACTIVE, a PCIe one while its lanes are powered; the
media clocks are aligned while the root PLL runs. -/
def State.clkStat (s : State) : Nat :=
  let quad (q : Nat) : Bool := if q < 4 then decide (2 ≤ s.fld (LANE.STAT_STATE q) ∧ s.fld (LANE.STAT_STATE q) ≤ 6) else s.hif.lanesOn
  let serdes := (List.range 6).foldl (fun a q => if quad q then a + 2 ^ q else a) 0
  serdes * 256 + 16 * b2n s.clk.rootPll + 8 * b2n s.clk.rootPll + 4 * b2n (s.fld DSP.SPAN_STAT_CURRENT = 2)
    + 2 * b2n s.clk.keeperPll + b2n s.clk.rootPll

/-- PCIE.LINK.LTSSM (R193): `v` while the lanes are unpowered, in reset or in L0; else where the training or what the downstream port directs
(Detect, Polling, Configuration, Recovery, Loopback, Hot Reset, Disabled) has brought the link, which no command names: a free value. -/
def State.ltssm (s : State) (v : Nat) : Nat :=
  if s.hif.lanesOn ∧ s.pins.perstN ∧ s.hif.linkUp = false then nth [0, 1, 2, 4, 5, 6, 7] (Config.training s.cyc % 7) v else v

/-- Bytes of packet memory held, in the Gallery or in the spill region (R393). -/
def State.heldBytes (s : State) (spilled : Bool) : Nat :=
  (s.queues.map (fun e => ((e.2.filter (fun k => k.spilled = spilled)).map (fun k => k.data.length)).foldl (· + ·) 0)).foldl (· + ·) 0

/-- The entry of a port's oper gate list. -/
def State.operEntry (s : State) (n i : Nat) : Nat :=
  match (s.port n).oper with
  | none => 0
  | some g => (nth g.entries i (0, 0)).1 * 2 ^ 32 + (nth g.entries i (0, 0)).2

/-- A snapshot taken by an earlier read of a path: rings share the PCIe port's. -/
def PathLatch.of (l : PathLatch) (p : Path) : List Reg := (l.get (if p = .ring then .pcie else p)).getD []

/-- That snapshot replaced. -/
def PathLatch.latch (l : PathLatch) (p : Path) (v : List Reg) : PathLatch := l.set (if p = .ring then .pcie else p) v

/-- KPR.TIME_NS at this instant (R161). -/
def State.timeNs (s : State) : Reg := BitVec.ofNat 48 (b2n s.valid * 2 ^ 47 + nsOf s.ctr * 65536 + fracOf s.ctr)

/-- Whether a master has work that may hold transactions outstanding (R127). -/
def State.works (s : State) (m : Nat) : Bool :=
  if m < 16 then (s.runningOn .bays m).isSome || (s.runningOn .assembly m).isSome || s.floors.any (fun e => e.1 = m)
  else if m < 24 then (s.runningOn .mze (m - 16)).isSome
  else if m = 24 then (List.range 8).any s.slotRuns
  else if m = 25 then !s.passes.isEmpty || s.loads.any (fun e => e.1 < 16)
  else if m = 26 then s.queues.any (fun e => e.2 ≠ [])
  else if m = 27 then !s.tasks.isEmpty || s.loads.any (fun e => 16 ≤ e.1)
  else if m = 28 then s.hif.cur.isSome
  else if m = 29 then true
  else s.scan.isSome

/-- The access that reads FAB.Mm_STAT is itself outstanding at its master (R131): a catwalk's is not. -/
def asksItself (path : Path) (m : Nat) : Nat := b2n ((m = 28 && (path = .pcie || path = .ring)) || (m = 29 && path = .core))

/-- FAB.Mm_STAT.OUTSTANDING (R131, R146): of the transactions that a drain found, those not yet returned; else those of the master's work and the
access itself, 64 at most. How many have returned, or are under way, at an instant is a free value (log entry 12). -/
def State.outstandingOf (s : State) (path : Path) (m : Nat) : Nat :=
  let w := Config.outstanding s.cyc m
  if (s.master m).draining then w % ((s.master m).outstanding + 1)
  else if s.inService = false then 0
  else min 64 (asksItself path m + (if s.works m then w % 65 else 0))

/-- What a register of a page reads as where the store alone does not say: bits that follow other state. -/
def State.live (s : State) (path : Path) (p : PageInfo) (n off k : Nat) (v : Reg) : Reg :=
  let b := p.base n
  if off = 0x10 then withBits v 2 1 (b2n ((List.range 31).any (fun m => s.frozen m && decide (b ∈ ownedPages m))))
  else match p.kind with
  | .kpr =>
    if off = 0x128 then BitVec.ofNat 48 (secOf s.ctr)
    else if off = 0x130 then nth (s.kpr.timeSnap.of path) 0 0
    else if 0x78 ≤ off ∧ off < 0x90 then nth (s.kpr.flogSnap.of path) ((off - 0x78) / 8) 0
    else v
  | .hif =>
    if off = 0x48 then BitVec.ofNat 48 s.attnGen
    else if off = 0x50 then BitVec.ofNat 48 s.attnSum
    else if 0x58 ≤ off ∧ off < 0x80 then BitVec.ofNat 48 (s.attnPage ((off - 0x58) / 8))
    else v
  | .fab =>
    if 0x100 ≤ off ∧ off < 0x8C0 ∧ off % 0x40 = 0x38 then
      withBits (withBits v 7 1 (b2n (s.frozen ((off - 0x100) / 0x40)))) 8 1 (b2n (s.master ((off - 0x100) / 0x40)).draining)
        |> fun x => withBits x 0 7 (s.outstandingOf path ((off - 0x100) / 0x40))
    else v
  | .pcie => if off = 0x40 then withBits v 8 8 (s.ltssm (bitsOf v 8 8)) else v
  | .clk => if off = 0x40 then BitVec.ofNat 48 s.clkStat else v
  | .ptp => if off = 0x98 then nth (s.servo.offsetSnap.of path) 0 0 else v
  | .dsp =>
    if 0x180 ≤ off ∧ off < 0x200 then
      withBits v 0 13 (s.tasks.filter (fun e => match e.2.st with
        | .ready level _ _ => level = k
        | _ => false)).length
    else v
  | .hbm =>
    let c := (32 * n + s.selected .hbm n) / 2
    if off = 0x68 ∧ (s.pc (2 * c)).sr = 0 ∧ s.channelIdle c then withBits v 39 2 1 else v
  | .que => if off = 0x58 then withBits v 0 14 (min 16383 (s.queue (1024 * n + s.selected .que n)).length) else v
  | .asm => if off = 0x80 then BitVec.ofNat 48 (ceilDiv (s.heldBytes false) 1024 * 2 ^ 24 + ceilDiv (s.heldBytes true) 1024) else v
  | .eau => if off = 0x40 then withBits v 45 1 (b2n (!s.bayFrozen n)) else v
  | .gate =>
    if off = 0x68 ∧ s.fld (GATE.ENT_IDX_LIST n) = 1 then BitVec.ofNat 48 (s.operEntry n (s.selected .gate n)) else v
  | .seal => if 0x58 ≤ off ∧ off < 0x90 then nth (s.sealSnap.of path) ((off - 0x58) / 8) 0 else v
  | .chk =>
    let u := Store.at s.chk {} k
    if 0xC0 ≤ off ∧ off < 0x100 then nth (u.snap.of path) 0 0
    else if 0x100 ≤ off ∧ off < 0x140 then BitVec.ofNat 48 (u.value % 2 ^ 32)
    else if 0x140 ≤ off ∧ off < 0x180 then nth (u.snap.of path) 1 0
    else v
  | .tdm =>
    if off = 0x68 then
      withBits v 9 7 (match Store.at s.audio.ports none n with
        | some r => r.input.length
        | none => 0)
    else v
  | _ => v

/-- The data a register reads as over a path, without what the read itself does (R100, R109, PG_SHADOW.VIEW). -/
def State.readData (s : State) (path : Path) (addr : Nat) : Reg :=
  match registerAt addr with
  | none => 0
  | some (p, n, r, k) =>
    let key := s.keyAt addr r n
    let view := s.fld (PG_SHADOW_VIEW (p.base n)) = 1
    s.live path p n (addr % 0x1000) k (viewed r view (s.reg key) (s.shadowReg key))

end Sys2Proof.Machine
end

