-- ==== Sys2Proof/Machine/Responder.lean ====
section
/-!
DEFINITION. Machine/Responder.lean: the frames of the system queues: ARP replies, IGMPv3 reports and PTP requests (spec 06 R164, R165, 07 R204,
16 R388, R391). What ARP (RFC 826), IGMPv3 (RFC 3376) and IPv4 fix of their bytes is taken from those standards, which R204 names.
-/
namespace Sys2Proof.Machine

/-- A frame enters the system queue of port `x` and is released on entry (R388, R391); `data` is the frame before its FCS. A frozen EGS sends
nothing. -/
def sendSystem (x : Nat) (data : List Byte) (s : State) : State :=
  if s.stopped 26 then s else releaseHead (8188 + x) (s.queue (8188 + x)) { launch := none, data := data } [] s

/-- The PTP groups of a port: 224.0.1.129 under profile 0 where the port listens (R164). -/
def State.ptpGroups (s : State) (x : Nat) : List Nat :=
  if bitAt (s.fld PTP.CFG_PORT_MASK) x ∧ s.fld PTP.CFG_PROFILE = 0 then [0xE0000181] else []

/-- What a leg matches: port, address, UDP port, source, and the tag it asks for. -/
def State.legMatch (s : State) (f : Nat) : Leg → List Nat
  | .a => [s.fld (FLOW.LEGA_CFG_PORT f), s.fld (FLOW.LEGA_ADDR_DST f), s.fld (FLOW.LEGA_ADDR_UDP f), s.fld (FLOW.LEGA_SRC_SRC f),
      s.fld (FLOW.LEGA_CFG_VLAN_EN f), s.fld (FLOW.LEGA_CFG_VLAN_EN f) * s.fld (FLOW.LEGA_CFG_VID f)]
  | .b => [s.fld (FLOW.LEGB_CFG_PORT f), s.fld (FLOW.LEGB_ADDR_DST f), s.fld (FLOW.LEGB_ADDR_UDP f), s.fld (FLOW.LEGB_SRC_SRC f),
      s.fld (FLOW.LEGB_CFG_VLAN_EN f), s.fld (FLOW.LEGB_CFG_VLAN_EN f) * s.fld (FLOW.LEGB_CFG_VID f)]

/-- The group that a leg of a flow context joins on port `x` (R204, R208). -/
def State.legGroup (s : State) (f : Nat) (l : Leg) (x : Nat) : Option Nat :=
  let dst := match l with
    | .a => s.fld (FLOW.LEGA_ADDR_DST f)
    | .b => s.fld (FLOW.LEGB_ADDR_DST f)
  if s.fld (FLOW.CFG_KIND f) ≠ 0 ∧ s.legOn f l ∧ s.legPort f l = x ∧ isGroup dst then some dst else none

/-- The groups that the flow contexts and PTP join on port `x`. -/
def State.groups (s : State) (x : Nat) : List Nat :=
  (s.ptpGroups x ++ ((List.range 64).map (fun f => (s.legGroup f .a x).toList ++ (s.legGroup f .b x).toList)).flatten).eraseDups

/-- The ARP reply of port `x` to a station (RFC 826). -/
def State.arpReply (s : State) (x : Nat) (mac : BitVec 48) (ip : BitVec 32) : List Byte :=
  beBytes 6 mac.toNat ++ beBytes 6 (s.fld (MAC.ADDR_ADDR x)) ++ beBytes 2 0x0806 ++ beBytes 2 1 ++ beBytes 2 0x0800 ++ beBytes 1 6
    ++ beBytes 1 4 ++ beBytes 2 2 ++ beBytes 6 (s.fld (MAC.ADDR_ADDR x)) ++ beBytes 4 (s.fld (MAC.IPV4_IPV4 x))
    ++ beBytes 6 mac.toNat ++ beBytes 4 ip.toNat

/-- DSCP of the system service of port `x`. -/
def State.sysDscp (s : State) (x : Nat) : Nat := s.fld (SHP.SVC_CFG_DSCP 3 (28 + x))

/-- An IGMPv3 membership report of port `x` to 224.0.0.22 (RFC 3376): one record of a type for each group. DSCP, identification, DF and TTL are those
of every frame (R390), where RFC 3376 has DSCP 48 and TTL 1 (DEDUCED, log entry 105). -/
def State.igmpReport (s : State) (x typ : Nat) (groups : List Nat) : List Byte :=
  let body := beBytes 2 groups.length ++ (groups.map (fun g => beBytes 1 typ ++ beBytes 3 0 ++ beBytes 4 g)).flatten
  let msg := beBytes 2 0x2200 ++ beBytes 2 (inetCheck (beBytes 2 0x2200 ++ beBytes 4 0 ++ body)) ++ beBytes 2 0 ++ body
  let head (sum : Nat) : List Byte := beBytes 1 0x46 ++ beBytes 1 (4 * s.sysDscp x) ++ beBytes 2 (24 + msg.length) ++ beBytes 4 0x4000
    ++ beBytes 2 0x4002 ++ beBytes 2 sum
    ++ beBytes 4 (s.fld (MAC.IPV4_IPV4 x)) ++ beBytes 4 0xE0000016 ++ beBytes 4 0x94040000
  beBytes 6 (groupMac 0xE0000016) ++ beBytes 6 (s.fld (MAC.ADDR_ADDR x)) ++ beBytes 2 0x0800 ++ head (inetCheck (head 0)) ++ msg

/-- A report of port `x` for groups, when IGMP_EN is 1 (R204). -/
def reportGroups (x typ : Nat) (groups : List Nat) (s : State) : State :=
  if s.fld (MAC.CFG_IGMP_EN x) = 1 ∧ groups ≠ [] then sendSystem x (s.igmpReport x typ groups) s else s

/-- The groups of port `x` that `t` joins and `s` did not are reported. -/
def reportJoins (s t : State) (x : Nat) : State := reportGroups x 4 ((t.groups x).filter (fun g => decide (g ∉ s.groups x))) t

/-- A PTP message: its type, length and domain stand in the first 5 of its `n` bytes as IEEE 1588 lays them out; the rest, which IEEE 1588 or 802.1AS
gives, is free (log entries 41, 42). `sdo`: 0 under ST 2059-2, 1 under IEEE 802.1AS. -/
def ptpMessage (sdo typ n : Nat) (s : State) : List Byte × State :=
  let (ver, t) := s.freeBytes 1
  let (rest, t) := t.freeBytes (n - 5)
  (beBytes 1 (16 * sdo + typ) ++ ver ++ beBytes 2 n ++ beBytes 1 (s.fld PTP.CFG_DOMAIN) ++ rest, t)

/-- A message of profile 1 on port `x`: Ethernet type 0x88F7 to 01-80-C2-00-00-0E (R164). -/
def ptpOverEthernet (x typ : Nat) (s : State) : List Byte × State :=
  let (msg, t) := ptpMessage 1 typ 54 s
  (beBytes 6 0x0180C200000E ++ beBytes 6 (s.fld (MAC.ADDR_ADDR x)) ++ beBytes 2 0x88F7 ++ msg, t)

/-- An event message of profile 0 on port `x`: UDP port 319 over IPv4 to 224.0.1.129, or to the master under DREQ_UNICAST, whose addresses no
command gives (R164); DSCP, identification, DF and TTL are those of R390. -/
def ptpOverIp (x typ : Nat) (s : State) : List Byte × State :=
  let (msg, t) := ptpMessage 0 typ 44 s
  let (mac, t) := t.freeBytes 6
  let (ip, t) := t.freeBytes 4
  let (check, t) := t.freeBytes 2
  let uni := decide (s.fld PTP.CFG_DREQ_UNICAST = 1)
  let dst := if uni then ip else beBytes 4 0xE0000181
  let head (sum : Nat) : List Byte := beBytes 1 0x45 ++ beBytes 1 (4 * s.sysDscp x) ++ beBytes 2 (28 + msg.length) ++ beBytes 4 0x4000
    ++ beBytes 1 64 ++ beBytes 1 17 ++ beBytes 2 sum ++ beBytes 4 (s.fld (MAC.IPV4_IPV4 x)) ++ dst
  ((if uni then mac else beBytes 6 (groupMac 0xE0000181)) ++ beBytes 6 (s.fld (MAC.ADDR_ADDR x)) ++ beBytes 2 0x0800 ++ head (inetCheck (head 0))
    ++ beBytes 2 319 ++ beBytes 2 319 ++ beBytes 2 (8 + msg.length) ++ check ++ msg, t)

/-- The Delay_Req (profile 0) or Pdelay_Req (profile 1) of port `x` (R164, R165). -/
def ptpRequest (x : Nat) (s : State) : List Byte × State := if s.fld PTP.CFG_PROFILE = 0 then ptpOverIp x 1 s else ptpOverEthernet x 2 s

/-- The answer to a Pdelay_Req under profile 1: Pdelay_Resp, an event message that is timestamped, and its Follow_Up (R163 to R165). -/
def sendPdelayResp (x : Nat) (s : State) : State :=
  let (resp, t) := ptpOverEthernet x 3 s
  let t := stampTx x (sendSystem x resp t)
  let (follow, t) := ptpOverEthernet x 10 t
  sendSystem x follow t

/-- DELAY_REQ_SEND (R163, R165): the time processor sends its scheduled request on a listening port. Under profile 0 that is the active port. -/
def execDelayReqSend (port : Fin 4) (s : State) : Out :=
  finish s <|
    let x := port.val
    if s.inService ∧ bitAt (s.fld PTP.CFG_PORT_MASK) x ∧ (s.fld PTP.CFG_PROFILE = 1 ∨ s.fld PTP.STAT_ACTIVE_PORT = x) then
      let (data, t) := ptpRequest x s
      stampTx x (sendSystem x data t)
    else s

end Sys2Proof.Machine
end

