-- ==== Sys2Proof/Machine/Boot.lean ====
section
/-!
DEFINITION. Machine/Boot.lean: staging, verification, INIT, fuses and attestation (spec 03 R54 to R89).
-/
namespace Sys2Proof.Machine

/-! ### The boot ROM (R54, R56, R79, R80, R84) -/

/-- The fused rollback count: the highest blown thermometer bit plus one (R80). -/
def State.rollback (s : State) : Nat :=
  let t := s.otpWord 20 + s.otpWord 21 * 2 ^ 32
  if t = 0 then 0 else Nat.log2 t + 1

/-- OWNER_ENABLE: five or more of its eight copies are blown (R79). -/
def State.ownerEnable (s : State) : Bool := decide (5 ≤ ((List.range 8).filter (bitAt (s.otpWord 10))).length)

/-- OWNER_DAMAGED: an owner programming was cut off with fewer than five copies blown (R84). -/
def State.ownerDamaged (s : State) : Bool :=
  !s.ownerEnable && s.sec.fuse.isNone
    && (s.otpWord 10 % 256 != 0 || (List.range 8).any (fun i => s.otpWord (12 + i) != 0))

/-- SEC.FUSE_STAT shows the fused values. -/
def showFuses (s : State) : State :=
  let t := (s.setFld SEC.FUSE_STAT_RB_COUNT s.rollback).setFld SEC.FUSE_STAT_OWNER_ENABLE (b2n s.ownerEnable)
  (t.setFld SEC.FUSE_STAT_OWNER_DAMAGED (b2n s.ownerDamaged)).setFld SEC.FUSE_STAT_BUSY (b2n s.sec.fuse.isSome)

/-- A read of SEC.FUSE_STAT: while a programming is in progress, the bits blown so far count. -/
def fuseStatRead (s : State) : State × Reg × Code :=
  (s, if s.sec.fuse.isSome then (showFuses s).reg 0x30D8 else s.reg 0x30D8, .ok)

/-- The staging area is released (R68). -/
def releaseStaging (s : State) : State := s.setFld BOOT.STAT_SRC 0

/-- The staging area reads zero. -/
def clearStaging (s : State) : State :=
  { s with gallery := Memory.clear s.gallery Config.stagingBase (Config.stagingBase + Config.stagingBytes) }

/-- BOOT_ROM_READY (R54, R56): the boot ROM has cleared the staging area and enabled the host paths: COLD to WAIT_IMAGE. -/
def execBootRomReady (s : State) : Out :=
  finish s <|
    if s.pwr.core ∧ s.ready = .cold ∧ s.pwr.coldAt = none then
      let t := clearStaging (releaseStaging (hifReset { s with ready := .waitImage }))
      showFuses ((t.setFld BOOT.STAT_STEP 0).setFld BOOT.STAT_RESULT 0)
    else s

/-! ### Staging (R66 to R69) -/

/-- Bytes stored in the staging area; those at or beyond 24 MiB are dropped. -/
def stageStore (off : Nat) (bytes : List Byte) (s : State) : State :=
  s.galWrite (Config.stagingBase + off) (bytes.take (Config.stagingBytes - off))

/-- A staging write by `owner` (1 BAR2, 2 Uasyn): in WAIT_IMAGE and QUARANTINE it is stored for the path that owns the area; locked in VERIFY
and INIT it counts in LATE_WR; from the path that does not own the area it counts in FOREIGN_WR. An accepted write takes ownership also where
none of its bytes lies below 24 MiB, which only STAGE_DATA reaches: R66 drops such a BAR2 write before (DESIGN CHOICE, log entry 50). -/
def stageWrite (owner off : Nat) (bytes : List Byte) (s : State) : State × Code :=
  let src := s.fld BOOT.STAT_SRC
  let s' := if src ≠ 0 ∧ src ≠ owner then s.satFld BOOT.STAT_FOREIGN_WR else s
  match s.ready with
  | .waitImage => if src = 0 ∨ src = owner then (stageStore off bytes (s.setFld BOOT.STAT_SRC owner), .ok) else (s', .busy)
  | .quarantine => if src = 0 ∨ src = owner then (stageStore off bytes (s.setFld BOOT.STAT_SRC owner), .ok) else (s', .busy)
  | .verify => (s'.satFld BOOT.STAT_LATE_WR, .busy)
  | .init => (s'.satFld BOOT.STAT_LATE_WR, .busy)
  | _ => (s, .busy)

/-- STAGE_WRITE_BAR2 (R66, R68, R69): a memory write to BAR2 before READY; beyond 24 MiB it is dropped, and in INIT counted all the same. -/
def execStageWriteBar2 (offset : BitVec 28) (bytes : List Byte) (s : State) : Out :=
  finish s <|
    if s.reaches .pcie ∧ s.pwr.core ∧ s.inService = false ∧ (offset.toNat < Config.stagingBytes ∨ s.ready = .init) then
      (stageWrite 1 offset.toNat bytes s).1
    else s

/-- A write of BOOT.STAGE_DATA (R67): six bytes at STAGE_ADDR, which advances by 6. Where no staging area is served nothing is stored. -/
def stageData (path : Path) (data : Reg) (s : State) : State × Code :=
  let off := s.fld BOOT.STAGE_ADDR_ADDR
  let r := stageWrite (if path = .uasyn then 2 else 1) off (leBytes 6 data.toNat) s
  let staging := decide (s.ready = .waitImage ∨ s.ready = .quarantine ∨ s.ready = .verify ∨ s.ready = .init)
  if staging ∧ r.2 ≠ .ok then r else ((if staging then r.1 else s).setFld BOOT.STAGE_ADDR_ADDR (off + 6), .ok)

/-- STAGE_DATA_WRITE (R67, R68, R69). -/
def execStageDataWrite (path : Path) (data : Reg) (s : State) : Out :=
  finishWrite path s (hostWrite path 0x2060 data true false (stageData path data) s)

/-- A write of BOOT.GO.GO (R70); HIF returns to reset with every entry to a READY state before READY (R124). -/
def bootGo (s : State) : State × Code :=
  if s.ready ≠ .waitImage ∧ s.ready ≠ .quarantine then (s, .busy)
  else if s.fld BOOT.IMG_LEN_LEN = 0 then (s, .zeroLength)
  else
    (hifReset { s.wrapFld BOOT.STAT_BOOTS with
      ready := .verify
      boot := { latched := s.fld BOOT.IMG_LEN_LEN, fromQuarantine := decide (s.ready = .quarantine) } }, .ok)

/-- BOOT_GO (R70). -/
def execBootGo (path : Path) (s : State) : Out := finishWrite path s (hostWrite path 0x2048 1 true false bootGo s)

/-! ### The image (R59 to R65) -/

/-- A little-endian field of an image. -/
def imgField (img : List Byte) (off n : Nat) : Nat := leNat ((img.drop off).take n)

/-- Whether bytes `lo` to `hi` - 1 of an image are zero. -/
def imgZero (img : List Byte) (lo hi : Nat) : Bool := ((img.drop lo).take (hi - lo)).all (fun b => b = 0)

/-- A section table entry (TYPE, OFFSET, LENGTH, LOAD) (R61). -/
def imgSection (img : List Byte) (i : Nat) : Nat × Nat × Nat × Nat :=
  let e := 0x40 + 16 * i
  (imgField img e 2, imgField img (e + 4) 4, imgField img (e + 8) 4, imgField img (e + 12) 4)

/-- The sections of an image. -/
def imgSections (img : List Byte) : List (Nat × Nat × Nat × Nat) := (List.range (imgField img 0x1D 1)).map (imgSection img)

/-- The header rules of R60 that name no section. -/
def headerHolds (img : List Byte) (len : Nat) : Bool :=
  let flags := imgField img 0x14 4
  let sig := imgField img 0x0C 4
  let count := imgField img 0x1D 1
  imgField img 0 4 = 0x59464C46 && imgField img 4 2 = 1 && imgField img 6 2 = 0x400 && imgField img 8 4 = len
    && sig % 64 = 0 && sig + 772 * (1 + flags % 2) = len && imgField img 0x10 4 = 0x8120 && flags / 2 = 0
    && decide (imgField img 0x1C 1 ≤ 64) && decide (1 ≤ count) && decide (count ≤ 32)
    && imgZero img 0x1E 0x40 && imgZero img (0x40 + 16 * count) 0x240 && imgZero img 0x240 0x400

/-- 6 MiB, the control partition (R25, R62). -/
def controlBytes : Nat := 6291456

/-- The rules of one section by itself (R61, R62). -/
def sectionHolds (img : List Byte) (sig i : Nat) : Bool :=
  let (typ, off, len, load) := imgSection img i
  let place : Bool :=
    if typ = 1 ∨ typ = 2 then decide (load + len ≤ controlBytes)
    else if typ = 3 then decide (load / 2 ^ 24 ≤ 3) && decide (load % 2 ^ 24 + len ≤ 1048576)
    else if typ = 4 then true
    else typ = 5 && load = 0
  imgField img (0x42 + 16 * i) 2 = 0 && off % 64 = 0 && decide (0x400 ≤ off) && decide (1 ≤ len) && decide (off + len ≤ sig) && place

/-- Payloads ascend without overlap, with zeros between them and up to SIG_OFFSET (R62). -/
def payloadsHold (img : List Byte) (sig : Nat) : List (Nat × Nat × Nat × Nat) → Bool
  | [] => true
  | [(_, off, len, _)] => imgZero img (off + len) sig
  | (_, off, len, _) :: (t, o, l, d) :: rest =>
    decide (off + len ≤ o) && imgZero img (off + len) o && payloadsHold img sig ((t, o, l, d) :: rest)

/-- The rules over all sections (R62, R63). TIME_CODE takes "at most 512 KiB in total": the sum of the LENGTHs is bounded, LOAD is not (DESIGN
CHOICE, log entry 51). -/
def sectionsHold (img : List Byte) (sig : Nat) : Bool :=
  let l := imgSections img
  let code := l.filter (fun e => e.1 = 1)
  let time : Nat := ((l.filter (fun e => e.1 = 4)).map (fun e => e.2.2.1)).foldl (· + ·) 0
  (List.range l.length).all (sectionHolds img sig) && payloadsHold img sig l
    && decide (code.length = 1) && decide ((l.filter (fun e => e.1 = 5)).length ≤ 1) && decide (time ≤ 524288)
    && (l.filter (fun e => e.1 = 2)).all (fun d => code.all (fun c =>
      decide (d.2.2.2 + d.2.2.1 ≤ c.2.2.2 ∨ c.2.2.2 + c.2.2.1 ≤ d.2.2.2)))

/-- A key block's hash equals the one fused at an OTP word (R65, R72). -/
def keyMatches (img : List Byte) (block word : Nat) (s : State) : Bool :=
  decide (sha256 ((img.drop block).take 388) = ((List.range 8).map (fun i => leBytes 4 (s.otpWord (word + i)))).flatten)

/-- A key block's signature over the image verifies (R64, R65). -/
def sigVerifies (img : List Byte) (sig block : Nat) : Bool :=
  imgField img (block + 384) 4 = 0x10001
    && rsaVerify (imgField img block 384) 0x10001 ((img.drop (block + 388)).take 384) (sha256 (img.take sig))

/-- The steps of R72, in order: RESULT and STEP of the first that fails, (1, 0) when none does, and whether step 6 ran. -/
def verifyImage (img : List Byte) (len : Nat) (s : State) : Nat × Nat × Bool :=
  let sig := imgField img 0x0C 4
  let owner := s.ownerEnable
  if len % 4 ≠ 0 ∨ imgField img 8 4 < 0x400 + 64 + 772 then (2, 1, false)
  else if headerHolds img len = false ∨ sectionsHold img sig = false then (2, 2, false)
  else if keyMatches img sig 2 s = false then (3, 3, false)
  else if sigVerifies img sig sig = false then (4, 5, false)
  else if owner ∧ (imgField img 0x14 4 % 2 = 0 ∨ keyMatches img (sig + 772) 12 s = false) then (5, 6, true)
  else if owner ∧ sigVerifies img sig (sig + 772) = false then (6, 7, true)
  else if imgField img 0x1C 1 < s.rollback then (7, 8, owner)
  else (1, 0, owner)

/-- The staged image. -/
def State.staged (s : State) : List Byte := Memory.read s.gallery Config.stagingBase s.boot.latched

/-- VERIFY_DONE (R72 to R74): the security engine's result. `us` is the time spent in VERIFY. -/
def execVerifyDone (us : Nat) (s : State) : Out :=
  finish s <|
    if s.ready ≠ .verify then s
    else
      let img := s.staged
      let (result, step, checked) := verifyImage img s.boot.latched s
      let t := (s.setFld BOOT.STAT_RESULT result).setFld BOOT.STAT_STEP step
      let t := (t.setFld BOOT.STAT_OWNER_CHECKED (b2n checked)).setFld BOOT.LAST_TIME_VERIFY_US us
      let fw := imgField img 0x18 4
      let level := imgField img 0x1C 1
      if result = 1 then
        hifReset { t with
          ready := .init
          boot := { t.boot with image := some ⟨fw, level, sha256 (img.take (imgField img 0x0C 4)), imgSections img⟩ } }
      else
        let back := decide (result = 2) && s.boot.fromQuarantine
        let cls := if result = 2 then (if back then 0 else 1) else 6
        let t := t.record 0x06 cls (level * 256 + step * 16 + result) fw
        let t := if result = 2 then (if back then t else t.raise Pg.boot 0) else t.raise Pg.boot 1
        hifReset (releaseStaging { t with ready := if result = 2 ∧ back = false then .waitImage else .quarantine, boot := {} })

/-! ### INIT (R75 to R77, R145, R425, R426) -/

/-- Gallery offset of the control partition: bank group 14 on (R428). -/
def controlBase : Nat := 58720256

/-- The control partition as step 1 loads it: CTRL_CODE and CTRL_DATA payloads at their LOAD offsets, everything else zero (R75). -/
def loadControl (img : List Byte) (l : List (Nat × Nat × Nat × Nat)) : List Host.Cell :=
  (l.filter (fun e => e.1 = 1 ∨ e.1 = 2)).foldl (fun m e =>
    Memory.write m (controlBase + e.2.2.2) ((img.drop e.2.1).take e.2.2.1)) []

/-- The microcode stores as step 1 loads them (R62, R75): store LOAD [31:24] takes the MiB of that number. -/
def loadEngines (img : List Byte) (l : List (Nat × Nat × Nat × Nat)) : List Host.Cell :=
  (l.filter (fun e => e.1 = 3)).foldl (fun m e =>
    Memory.write m (e.2.2.2 / 2 ^ 24 * 2 ^ 20 + e.2.2.2 % 2 ^ 24) ((img.drop e.2.1).take e.2.2.1)) []

/-- TMB's message firmware as step 1 loads it (R62, R75). -/
def loadTime (img : List Byte) (l : List (Nat × Nat × Nat × Nat)) : List Host.Cell :=
  (l.filter (fun e => e.1 = 4)).foldl (fun m e => Memory.write m e.2.2.2 ((img.drop e.2.1).take e.2.2.1)) []

/-- Registers that step 5 of INIT keeps: KPR's, BOOT.STAT, BOOT.LAST_TIME and SEC.FUSE_STAT by R75, the counter's increment by R160; and what
shows state that its own rules give and a page's reset does not move: the lanes' and ports' STAT, calibration and eye, PCIE.LINK, the
stacks' training (log entry 51). -/
def initStays (key : Nat) : Bool :=
  let a := key % 0x1000000
  let page := a / 0x1000
  let off := a % 0x1000
  page = 0x1 || a = 0x2050 || a = 0x2068 || a = 0x30D8 || a = PTP.INCR_INCR.key || a = PTP.FREQ_ADJ_PPB.key || a = 0x108040
    || (decide (0x110 ≤ page ∧ page < 0x128) && (off = 0x40 || off = 0x48 || off = 0x50))
    || (decide (0x100 ≤ page ∧ page < 0x104) && off = 0x68) || (decide (0x104 ≤ page ∧ page < 0x108) && off = 0x58)
    || (decide (0x900 ≤ page ∧ page < 0x902) && off = 0x70)

/-- One register default of the DEFAULTS section: the writable fields, in effect and in the shadow copy; an entry with a reserved or excluded
value is not applied (R7). -/
def applyDefault (s : State) (e : Nat × Reg) : State :=
  match registerAt e.1 with
  | none => s
  | some (_, n, r, _) =>
    let key := s.keyAt e.1 r n
    let put (v : Reg) : Reg := r.fields.foldl (fun v f =>
      if f.acc = .rw ∨ f.acc = .rws then withBits v f.lo f.w (bitsOf e.2 f.lo f.w) else v) v
    if r.accepts e.2 = false then s else (s.setReg key (put (s.reg key))).setShadow key (put (s.shadowReg key))

/-- HBMn.TRAIN after step 2. -/
def showTrain (n result channel us repairs : Nat) (s : State) : State :=
  let t := (s.setFld (HBM.TRAIN_RESULT n) result).setFld (HBM.TRAIN_FAIL_CH n) channel
  (t.setFld (HBM.TRAIN_TIME_US n) us).setFld (HBM.TRAIN_REPAIRS n) (min 255 repairs)

/-- Training fails (R426): HBMn.TRAIN of the failing stack names its channel, whose number nothing but the command gives. What the other stack,
brought up with it, shows as RESULT the spec does not say: not run or pass, a free value (log entry 102). -/
def trainFails (n channel us repairs : Nat) (s : State) : State :=
  let (b, t) := s.freeBool
  showTrain n 2 channel us (repairs / 256 ^ n % 256) (showTrain (1 - n) (b2n b) 0 us (repairs / 256 ^ (1 - n) % 256) t)

/-- Training succeeds (R425): the stacks hold zeros with valid codes and refresh runs. -/
def trained (us repairs : Nat) (s : State) : State :=
  let t := { s with hbm := [], poison := [] }
  startRefresh (showTrain 1 1 0 us (repairs / 256) (showTrain 0 1 0 us (repairs % 256) t))

/-- INIT fails at a step (R76): RESULT, STEP, class 7, a fault record, HALTED. `detail` is the record's second word. -/
def initFails (step us detail : Nat) (s : State) : State :=
  let t := (s.setFld BOOT.STAT_RESULT 8).setFld BOOT.STAT_STEP step
  let t := (t.setFld BOOT.LAST_TIME_INIT_US us).record 0x07 7 step detail
  halt { t.raise Pg.boot 2 with boot := {} }

/-- Steps 1 and 3 of INIT: the sections are where they belong and the rest of the Gallery is clear, with new check bits (R66, R75). -/
def loaded (s : State) : State :=
  let l := match s.boot.image with
    | some i => i.sections
    | none => []
  { s with gallery := loadControl s.staged l, engineCode := loadEngines s.staged l, timeCode := loadTime s.staged l, badWords := [], wbacks := [] }

/-- INIT fails at a step, those before it done (R76, R425): from step 3 on the stacks are trained, from step 4 on the Gallery is clear. -/
def initFailsAt (step us trainUs repairs : Nat) (s : State) : State :=
  let t := if 3 ≤ step then trained trainUs repairs s else s
  initFails step us 0 (if 4 ≤ step then loaded t else t)

/-- INIT fails in training (R76, R426): the record names the stack and holds its TRAIN. -/
def initTrainFails (n channel us trainUs repairs : Nat) (s : State) : State :=
  let t := trainFails n channel trainUs repairs s
  initFails 2 us ((t.reg (Pg.hbm n + 0x70)).toNat * 4 + 2 * n) t

/-- Step 5's page reset: what R75 keeps stays, every other register and unit is at reset, retired and frozen engines stay so. -/
def resetPages (s : State) : State :=
  keepRetired s { dropUnits s with regs := resetRegs initStays true s.regs }

/-- The lanes of port `n` are calibrated when step 4 of INIT ends (R75): codes that no LANE_CAL_DONE gave are free values. -/
def calibrate (n : Nat) (s : State) : State :=
  if (s.lane n).calibrated then s
  else
    let t := (List.range 4).foldl (fun t m =>
      let (w, u) := t.freeWord
      setCal (4 * n + m) (BitVec.ofNat 24 w.toNat) u) s
    t.setLane n { t.lane n with calibrated := true }

/-- Port `n` as INIT leaves it (R75, R189, R202): calibrated, OFF while ENABLE is 0, in DEEP_REST where DEFAULTS set it, else past CAL; one that
trained at another speed than its settings now give begins again. A SPEED that DEFAULTS set is in effect at once, with the taps that DEFAULTS
or reset give and not that speed's own: R192 and R194 speak of commits only (DESIGN CHOICE, log entry 89). -/
def bringPort (t : State) (n : Nat) : State :=
  let u := calibrate n t
  let st := u.fld (LANE.STAT_STATE n)
  let speed := u.fld (LANE.CFG_SPEED n)
  let u :=
    if u.fld (PG_CTRL_ENABLE (Pg.lane n)) = 0 then enterLane n 0 (setAllCdr n false (u.setLane n {}))
    else if u.fld (LANE.CFG_DEEP_REST n) = 1 then (if st = 7 then u else enterLane n 7 (setAllCdr n false u))
    else if st = 0 ∨ st = 1 ∨ st = 7 ∨ u.fld (MAC.STAT_SPEED n) ≠ speed then enterLane n 2 u
    else u
  showFrozen n (u.setFld (MAC.STAT_SPEED n) speed)

/-- Every unit whose state follows a register shows what DEFAULTS made of it: bays, engines and ports (R189, R287, R479). -/
def bringUnits (s : State) : State :=
  let t := (List.range 16).foldl (fun u n => showBay n u) s
  let t := (List.range 8).foldl (fun u n => showMze n u) t
  (List.range 4).foldl bringPort t

/-- Entry to READY (R77, R42, R86, R368): Full Span, or Quiet Span under the throttle; the watchdogs start. Where a bay or engine stays retired
DEGRADED follows in the next cycle (R467). Every port reports the groups that PTP joins (R204). -/
def enterService (s : State) : State :=
  let t := idleAll { s with sec := { s.sec with measured := List.replicate 32 0, count := 0 }, scrub := [] }
  let t := { t with kpr := { t.kpr with progress := (List.range 4).foldl (fun m c => Store.put m 0 c s.cyc) t.kpr.progress }, span := {} }
  let t := if t.fld KPR.THERM_STAT_THROTTLE = 1 then (t.setFld DSP.SPAN_STAT_CURRENT 2).setFld DSP.SPAN_STAT_THERMAL 1 else t
  (List.range 4).foldl (fun u x => reportGroups x 4 (u.groups x) u) (startPorts { t with ready := .ready })

/-- INIT_DONE (R75 to R77): every step completes, or one fails. `us` is the time in INIT, `trainUs` that of training, `repairs` the mapped
lanes of stack 0 plus 256 times those of stack 1, `defaults` what the firmware reads from the DEFAULTS section. -/
def execInitDone (us trainUs repairs : Nat) (defaults : List (Nat × Reg)) (fail : Option InitFail) (s : State) : Out :=
  finish s <|
    if s.ready ≠ .init then s
    else match fail with
      | some f =>
        if f.step = 2 then initTrainFails f.stack.val f.channel.val us trainUs repairs s
        else initFailsAt f.step us trainUs repairs s
      | none =>
        let l := match s.boot.image with
          | some i => i.sections
          | none => []
        let t := setMasks (showFuses ((resetPages (trained trainUs repairs (loaded s))).setFld BOOT.LAST_TIME_INIT_US us))
        let t := showHot t
        let t := if l.any (fun e => e.1 = 5) then defaults.foldl applyDefault t else t
        enterService (bringUnits t)

/-- INIT_STEP_TIMEOUT (R76, R426): a step of INIT exceeds its budget; in training the command names the stack and the channel. -/
def execInitStepTimeout (step : InitStop) (us : Nat) (s : State) : Out :=
  finish s <|
    if s.ready ≠ .init then s
    else if step.step.val = 1 then initTrainFails step.stack.val step.channel.val us step.trainUs step.repairs s
    else initFailsAt (step.step.val + 1) us step.trainUs step.repairs s

/-! ### Fuses (R82 to R84) -/

/-- The thermometer bits a rollback advance blows, lowest first (R82). -/
def State.rollbackBits (s : State) : List Nat :=
  let level := match s.boot.image with
    | some i => i.level
    | none => 0
  (List.range (level - s.rollback)).map (fun i => 640 + s.rollback + i)

/-- The owner hash bits that are 1, and the eight enable copies (R83). -/
def State.ownerBits (s : State) : List Nat :=
  ((List.range 8).map (fun i => (setBits 32 (s.fld (SEC.OWNER_HASH_BYTES i))).map (fun b => 384 + 32 * i + b))).flatten
    ++ (List.range 8).map (fun i => 320 + i)

/-- A write of SEC.FUSE_CTRL (R82 to R84). While a programming is in progress every write is refused with BUSY, also one that DECODE_ERROR or
NOT_READY would refuse: the spec gives no order (DESIGN CHOICE, log entry 52). A write that sets both RB_COMMIT and OWNER_PROG is one job, the
rollback bits first, and outside service it is refused with NOT_READY before PERMISSION: the spec gives no order between the two (DESIGN
CHOICE, log entry 52). -/
def fuseCtrl (rb own : Bool) (confirm : Nat) (s : State) : State × Code :=
  if s.sec.fuse.isSome then (s, .busy)
  else if own ∧ confirm ≠ 0xA55C then (s, .decodeError)
  else if rb ∧ s.inService = false then (s, .notReady)
  else if own ∧ (s.inService = false ∨ s.ownerEnable ∨ s.ownerDamaged) then (s, .permission)
  else
    let bits := (if rb then s.rollbackBits else []) ++ (if own then s.ownerBits else [])
    if bits = [] then (s, .ok)
    else ({ s with sec := { s.sec with fuse := some ⟨bits, s.cyc⟩ } }.setFld SEC.FUSE_STAT_BUSY 1, .ok)

/-- RB_COMMIT (R82). -/
def execRbCommit (path : Path) (s : State) : Out :=
  finishWrite path s (hostWrite path 0x30D0 0x10000 true false (fuseCtrl true false 0) s)

/-- OWNER_PROG (R83). -/
def execOwnerProg (path : Path) (confirm : BitVec 16) (s : State) : Out :=
  finishWrite path s (hostWrite path 0x30D0 (BitVec.ofNat 48 (0x20000 + confirm.toNat)) true false (fuseCtrl false true confirm.toNat) s)

/-- FUSE_PROG_DONE (R82 to R84): every bit has taken its 100 µs. -/
def execFuseProgDone (s : State) : Out :=
  finish s <|
    match s.sec.fuse with
    | none => s
    | some j =>
      if j.start + usCyc 100 * j.bits.length ≤ s.cyc then
        showFuses { s with otp := j.bits.foldl blowBit s.otp, sec := { s.sec with fuse := none } }
      else s

/-! ### Attestation (R87 to R89) -/

/-- A write of SEC.ATT_CTRL.GO (R87). Outside service NOT_READY is answered also while a report is still BUSY: the rule gives no order (DESIGN
CHOICE, log entry 52). -/
def attGo (s : State) : State × Code :=
  if s.inService = false then (s, .notReady)
  else if s.sec.job.isSome then (s, .busy)
  else
    let nonce := ((List.range 8).map (fun i => leBytes 4 (s.fld (SEC.ATT_NONCE_BYTES i)))).flatten
    let t := { s with sec := { s.sec with job := some ⟨nonce, secOf s.ctr, nsOf s.ctr, s.sec.measured, s.sec.count⟩ } }
    ((t.setFld SEC.ATT_STAT_VALID 0).setFld SEC.ATT_STAT_BUSY 1, .ok)

/-- ATT_GO (R87). -/
def execAttGo (path : Path) (s : State) : Out := finishWrite path s (hostWrite path 0x30E0 1 true false attGo s)

/-- OTP words as the bytes they store. -/
def State.otpBytes (s : State) (word n : Nat) : List Byte := ((List.range n).map (fun i => leBytes 4 (s.otpWord (word + i)))).flatten

/-- Bytes 0x000 to 0x0FF of the report of a job (R88). The nonce, the time, the measurement and its count are those of GO; the READY value,
OWNER_ENABLE, OWNER_CHECKED and the rollback count are those of the report's completion, for R88 says "at GO" of the time and the measurement
only (DESIGN CHOICE, log entry 52). -/
def State.reportBody (s : State) (j : AttJob) : List Byte :=
  let (fw, level, digest) := match s.boot.image with
    | some i => (i.fw, i.level, i.digest)
    | none => (0, 0, List.replicate 32 0)
  let flags := s.ready.code + 8 * b2n s.ownerEnable + 16 * s.fld BOOT.STAT_OWNER_CHECKED
  leBytes 4 0x52544146 ++ leBytes 2 1 ++ leBytes 2 0x280 ++ s.otpBytes 0 2 ++ j.nonce ++ leBytes 6 j.sec ++ leBytes 4 j.ns
    ++ leBytes 2 flags ++ leBytes 4 fw ++ leBytes 1 level ++ leBytes 1 s.rollback ++ leBytes 2 0 ++ leBytes 4 j.count ++ leBytes 8 0
    ++ digest ++ s.otpBytes 2 8 ++ (if s.ownerEnable then s.otpBytes 12 8 else List.replicate 32 0) ++ j.measured
    ++ sha256 (s.otpBytes 32 96) ++ List.replicate 16 0

/-- The modulus of the identity key (R78, R85). -/
def State.idModulus (s : State) : Nat := leNat (s.otpBytes 32 96)

/-- The private exponent of the identity key: the first 3,072 bits of ID_PRIV, which holds "private exponent and primes" (R78; DEDUCED, log
entry 52). -/
def State.idPrivate (s : State) : Nat := leNat (s.otpBytes 320 96)

/-- ATT_REPORT_DONE (R87, R88): the report is complete, signed by the identity key; the salt is a free value. -/
def execAttReportDone (s : State) : Out :=
  finish s <|
    match s.sec.job with
    | none => s
    | some j =>
      if s.inService = false then s
      else
        let body := s.reportBody j
        let (salt, t) := s.freeBytes 32
        let sig := rsaSign s.idModulus s.idPrivate (sha256 body) salt
        let t := { t with sec := { t.sec with job := none, report := body ++ sig } }
        (((t.setFld SEC.ATT_STAT_VALID 1).setFld SEC.ATT_STAT_BUSY 0).wrapFld SEC.ATT_STAT_GEN)

/-- A read of SEC.ATT_DATA (R89): the word at ATT_INDEX, which increments; zero with CODE BUSY while VALID is 0, where the index stays (DESIGN
CHOICE, log entry 52). Word 160 on is a free value. -/
def attData (s : State) : State × Reg × Code :=
  let i := s.fld SEC.ATT_INDEX_INDEX
  if s.fld SEC.ATT_STAT_VALID = 0 then (s, 0, .busy)
  else if i < 160 then
    (s.setFld SEC.ATT_INDEX_INDEX (i + 1), BitVec.ofNat 48 (leNat ((s.sec.report.drop (4 * i)).take 4)), .ok)
  else
    let (w, t) := s.freeWord
    (t.setFld SEC.ATT_INDEX_INDEX (i + 1), BitVec.ofNat 48 (w.toNat % 2 ^ 32), .ok)

/-- A read of SEC.OTP_DATA (R78, R81): word INDEX, which increments; ID_PRIV reads zero with CODE PERMISSION. -/
def otpData (s : State) : State × Reg × Code :=
  let i := s.fld SEC.OTP_INDEX_INDEX
  let t := s.setFld SEC.OTP_INDEX_INDEX (i + 1)
  if 320 ≤ i then (t, 0, .permission) else (t, BitVec.ofNat 48 (s.otpWord i), .ok)

end Sys2Proof.Machine
end

