-- ==== Sys2Proof/Machine/Check.lean ====
section
/-!
DEFINITION. Machine/Check.lean: the check-value units and the memory scan engine (spec 15 R380 to R387).
-/
namespace Sys2Proof.Machine

/-- Check-value unit `u`. -/
def State.unit (s : State) (u : Nat) : ChkUnit := Store.at s.chk {} u

/-- Its record replaced. -/
def State.setUnit (s : State) (u : Nat) (r : ChkUnit) : State := { s with chk := Store.put s.chk {} u r }

/-- Whether a unit is bound to the running scan (R383). -/
def State.unitBound (s : State) (u : Nat) : Bool :=
  match s.scan with
  | some r => r.unit = u
  | none => false

/-- Bytes fed into a unit, in order (R381). -/
def feedUnit (u : Nat) (bytes : List Byte) (s : State) : State :=
  let r := s.unit u
  s.setUnit u { r with value := crcFeed (s.fld (CHK.UCTL_POLY u)) bytes r.value, bytes := (r.bytes + bytes.length) % 2 ^ 48 }

/-- A unit loaded with its initial value, BYTES cleared (R381). -/
def loadUnit (u : Nat) (s : State) : State :=
  s.setUnit u { s.unit u with value := crcInit (s.fld (CHK.UCTL_POLY u)), bytes := 0 }

/-- A write of CHK.DATAu (R381, R383). -/
def crcData (u : Nat) (data : Reg) (s : State) : State × Code :=
  if s.unitBound u then (s, .busy)
  else (feedUnit u (leBytes (s.fld (CHK.UCTL_FEED_BYTES u)) data.toNat) s, .ok)

/-- A write of CHK.UCTLu (R381, R383). -/
def uctlWrite (u : Nat) (data : Reg) (s : State) : State × Code :=
  let feed := bitsOf data 4 3
  let poly := bitsOf data 0 2
  if s.unitBound u then (s, .busy)
  else if feed = 0 ∨ feed = 7 then (s, .decodeError)
  else
    let t := (s.setFld (CHK.UCTL_FEED_BYTES u) feed).setFld (CHK.UCTL_POLY u) poly
    (if bitsOf data 9 1 = 1 ∨ poly ≠ s.fld (CHK.UCTL_POLY u) then loadUnit u t else t, .ok)

/-- CRC_FEED (R380, R381). -/
def execCrcFeed (path : Path) (unit : Fin 8) (data : Reg) (s : State) : Out :=
  finishWrite path s (hostWrite path (0x7080 + 8 * unit.val) data true false (crcData unit.val data) s)

/-- CRC_RESET (R381): a write of UCTLu. -/
def execCrcReset (path : Path) (unit : Fin 8) (data : Reg) (s : State) : Out :=
  finishWrite path s (hostWrite path (0x7040 + 8 * unit.val) data true false (uctlWrite unit.val data) s)

/-! ### Scans (R384 to R387) -/

/-- Whether a region lies wholly inside the HBM range or wholly inside the Gallery range (R384). -/
def scanRange (addr len : Nat) : Bool :=
  decide (addr + len ≤ 0x800000000) || decide (0x800000000 ≤ addr ∧ addr + len ≤ 0x804000000)

/-- SCAN_STAT and SCAN_DONE of a scan in a state. -/
def showScan (state result poisoned fed : Nat) (s : State) : State :=
  let t := (s.setFld CHK.SCAN_STAT_STATE state).setFld CHK.SCAN_STAT_RESULT result
  (t.setFld CHK.SCAN_STAT_POISONED (min (2 ^ 24 - 1) poisoned)).setFld CHK.SCAN_DONE_BYTES fed

/-- A write of SCAN_CTRL with GO set (R384). -/
def scanGo (unit : Nat) (s : State) : State × Code :=
  let addr := s.fld CHK.SCAN_ADDR_ADDR
  let len := s.fld CHK.SCAN_LEN_LEN
  let t := s.setFld CHK.SCAN_CTRL_UNIT unit
  if s.scan.isSome then (s, .busy)
  else if len = 0 then (showScan 2 0 0 0 (loadUnit unit t), .zeroLength)
  else if scanRange addr len = false then (s, .decodeError)
  else (showScan 1 0 0 0 (loadUnit unit { t with scan := some { unit := unit, addr := addr, len := len, at0 := s.cyc } }), .ok)

/-- SCAN_START (R384). -/
def execScanStart (path : Path) (unit : Fin 8) (s : State) : Out :=
  finishWrite path s (hostWrite path 0x7190 (BitVec.ofNat 48 (2 ^ 8 + 16 * unit.val)) true false (scanGo unit.val) s)

/-- The bytes a scan feeds: as read, and how many poisoned beats or uncorrectable words are among them (R386). -/
def scanRead (addr n : Nat) (s : State) : List Byte × Nat × State :=
  if n = 0 then ([], 0, s)
  else if addr < 0x800000000 then
    let r := s.hbmRead addr n
    (r.1, (r.2.1.filter id).length, r.2.2)
  else
    let off := addr - 0x800000000
    (Memory.read s.gallery off n,
      ((List.range ((off + n + 7) / 8 - off / 8)).filter (fun i => Store.at s.badWords false (off / 8 + i))).length, s)

/-- The bytes of a scan that lie before the beat holding its byte number `n` (R386). -/
def ScanRun.beatStart (r : ScanRun) (n : Nat) : Nat := min r.len ((r.addr + n) / 32 * 32 - r.addr)

/-- The beats of a scan. -/
def ScanRun.beats (r : ScanRun) : Nat := (r.addr + r.len + 31) / 32 - r.addr / 32

/-- The bytes that a scan can have fed by a cycle: at most 32 B, one beat, per FAB_CLK cycle (R385). -/
def ScanRun.most (r : ScanRun) (cyc : Nat) : Nat := min r.len ((r.addr / 32 + 2 * (cyc - r.at0)) * 32 - r.addr)

/-- A running scan feeds on to its byte number `n`, each beat as it reads now (R385): the unit, POISONED and BYTES follow. -/
def feedScan (r : ScanRun) (n : Nat) (s : State) : ScanRun × State :=
  let (bytes, bad, t) := scanRead (r.addr + r.fed) (n - r.fed) s
  let r := { r with fed := max r.fed n, bad := r.bad + bad }
  (r, showScan 1 0 r.bad r.fed { feedUnit r.unit bytes t with scan := some r })

/-- A scan ends with its first `n` bytes fed, in a state and with a response code. -/
def endScan (r : ScanRun) (n state result : Nat) (s : State) : State :=
  let (r, t) := feedScan r n s
  showScan state result r.bad r.fed { t with scan := none }

/-- SCAN_DONE (R385): every byte has been fed. -/
def scanDone (r : ScanRun) (s : State) : State := (endScan r r.len 2 0 s).raise Pg.chk 0

/-- Whether what is left of a scan's region can be read now: no owed refresh or second read goes ahead of it (R360, R416). -/
def State.scanReads (s : State) (r : ScanRun) : Bool :=
  decide (0x800000000 ≤ r.addr) || s.readable (r.addr + r.fed) (r.len - r.fed)

/-- SCAN_DONE (R385): every byte has been fed, which takes the least time of a beat per FAB_CLK cycle. -/
def execScanDone (s : State) : Out :=
  finish s <|
    match s.scan with
    | some r => if s.inService ∧ s.issues 30 ∧ r.most s.cyc = r.len ∧ s.scanReads r then scanDone r s else s
    | none => s

/-- What a running scan feeds in `n` TIME_CLK cycles from `start` on: how many beats is free, at most two in each (R385); the last one it leaves to
SCAN_DONE, which reports the end. -/
def scanOn (start n : Nat) (s : State) : State :=
  match s.scan with
  | none => s
  | some r =>
    let goal := min (r.beatStart (r.fed + 32 * min (2 * n) (Config.scanBeats start n))) (r.beatStart (r.len - 1))
    if s.issues 30 ∧ r.fed < goal ∧ s.scanReads r then (feedScan r goal s).2 else s

/-- The number of a response (R134). -/
def respNum : Resp → Nat
  | .okay => 0 | .decerr => 1 | .permerr => 2 | .frozen => 3 | .mreset => 4 | .timeout => 5

/-- SCAN_ERROR (R386): the beat that holds byte number `fed` returned a response other than OKAY; the bytes before it are fed. -/
def execScanError (fed : Nat) (resp : Resp) (s : State) : Out :=
  finish s <|
    match s.scan with
    | some r =>
      if s.inService ∧ resp ≠ .okay ∧ fed < r.len ∧ r.fed ≤ r.beatStart fed ∧ r.beatStart fed ≤ r.most s.cyc then
        (countError 30 (endScan r (r.beatStart fed) 4 (respNum resp) s)).raise Pg.chk 1
      else s
    | none => s

/-- A write of SCAN_CTRL with ABORT set (R387): the beats before byte number `fed` were fed, as many as the time allows; `lastByte` says that the
last byte is fed in the same cycle. -/
def scanAbort (fed : Nat) (lastByte : Bool) (s : State) : State × Code :=
  match s.scan with
  | none => (s, .ok)
  | some r =>
    if lastByte ∧ r.most s.cyc = r.len then (scanDone r s, .ok)
    else (endScan r (max r.fed (min (r.most s.cyc) (r.beatStart fed))) 3 0 s, .ok)

/-- SCAN_ABORT (R387). -/
def execScanAbort (path : Path) (fed : Nat) (lastByte : Bool) (s : State) : Out :=
  finishWrite path s
    (hostWrite path 0x7190 (BitVec.ofNat 48 (2 ^ 9 + 16 * s.fld CHK.SCAN_CTRL_UNIT)) true false (scanAbort fed lastByte) s)

end Sys2Proof.Machine
end

