-- ==== Sys2Proof/Machine/Counters.lean ====
section
/-!
DEFINITION. Machine/Counters.lean: writes of the performance counters and of their selections, wraps that a write overtakes, and the BAR4
mirror (spec 04 R96, 19 R448 to R454).
-/
namespace Sys2Proof.Machine

/-- Whether an event selection names an event of R449 and an instance in its range. -/
def eventValid (sub event inst : Nat) : Bool :=
  match sub with
  | 0 => event = 1 || ((event = 0x10 || event = 0x11) && decide (inst ≤ 30))
  | 2 => event = 1
  | 3 => (event = 1 && decide (inst ≤ 63)) || (event = 2 && decide (inst ≤ 7))
  | 4 => event = 1 && decide (inst ≤ 7)
  | 5 => (event = 1 || event = 2 || decide (0x10 ≤ event ∧ event ≤ 0x17)) && decide (inst ≤ 15)
  | 6 => event = 1 && decide (inst ≤ 7)
  | 7 => (event = 1 && decide (inst ≤ 4)) || event = 2
  | 8 => (event = 1 || event = 2) && decide (inst ≤ 3)
  | 9 => (event = 1 || event = 2 || event = 3) && decide (inst ≤ 63)
  | 10 => event = 1 && decide (inst ≤ 3)
  | _ => false

/-- A write of PMC.EVSELw for counter `c` (R449, R450, R452): the writable bits, OVF and OVF_LOST cleared by ones. A write that leaves the
selection at its reset value 0, which names no event, is an event not in the table and refused like any other. -/
def evselWrite (c : Nat) (data : Reg) (s : State) : State × Code :=
  if eventValid (bitsOf data 32 4) (bitsOf data 0 16) (bitsOf data 24 8) = false then (s, .decodeError)
  else
    let old := s.reg (evselKey c)
    let v := withBits (withBits data 36 7 0) 16 8 0
    let v := if c % 2 = 0 then withBits v 46 1 0 else v
    let v := withBits v 45 1 (if bitsOf data 45 1 = 1 then 0 else bitsOf old 45 1)
    let v := withBits v 44 1 (if bitsOf data 44 1 = 1 then 0 else bitsOf old 44 1)
    (s.setReg (evselKey c) v, .ok)

/-- A write of PMC.CNTw for counter `c` (R448). -/
def cntWrite (c : Nat) (data : Reg) (s : State) : State × Code := (s.setReg (cntKey c) data, .ok)

/-- A write of PMC.CTRL with CLEAR_ALL set (R452). -/
def clearCounters (s : State) : State :=
  { s with regs := s.regs.filter (fun e => decide (¬(0x6200 ≤ e.1 % 0x1000000 ∧ e.1 % 0x1000000 < 0x6400))) }

/-- CLEAR_ALL (R452). -/
def execClearAll (path : Path) (s : State) : Out :=
  finishWrite path s (hostWrite path 0x6048 1 true false (fun t => (clearCounters t, .ok)) s)

/-- EVSEL of counter `c` with OVF_LOST set. -/
def loseWrap (c : Nat) (s : State) : State := s.setReg (evselKey c) (withBits (s.reg (evselKey c)) 44 1 1)

/-- Whether counter `c` runs and stands at 2^48 - 1. -/
def State.atTop (s : State) (c : Nat) : Bool := bitsOf (s.reg (evselKey c)) 47 1 = 1 && (s.reg (cntKey c)).toNat + 1 = 2 ^ 48

/-- COUNTER_WRAP (R448, R450, R452): a running counter at 2^48 - 1 counts once more; a chained one takes the wrap of the counter below it.
Without a write in the same cycle it wraps to 0, OVF is set and a chained counter above takes the carry. A write of the counter, of its EVSEL
or of CLEAR_ALL in the cycle prevails (`written`): the wrap, its carry and OVF are lost, and OVF_LOST is set; the write itself is a command of
its own. -/
def execCounterWrap (counter : Fin 512) (written : Bool) (s : State) : Out :=
  finish s <|
    let c := counter.val
    if s.inService = false then s
    else if c % 2 = 1 ∧ bitsOf (s.reg (evselKey c)) 46 1 = 1 then
      (if s.atTop (c - 1) = false then s
       else if written then loseWrap c (addCount (c - 1) 1 s).1
       else countOn (c - 1) 1 s)
    else if s.atTop c = false then s
    else if written then loseWrap c s
    else countOn c 1 s

/-! ### BAR4 (R96, R453, R454) -/

/-- The 48 bits of the BAR4 word at an offset (R453). -/
def State.bar4Word (s : State) (off : Nat) : Nat :=
  if off < 0x1000 then (s.reg (cntKey (off / 8))).toNat
  else
    let n := off / 0x1000 - 1
    let r := 0x800 + off % 0x1000
    if n < 8 ∧ r ≤ 0xC78 then (s.reg (Pg.stc n + r)).toNat else 0

/-- Bytes read over BAR4 from an offset (R453): zero while PMC.PG_CTRL.USER is 0, and while the module does not serve BAR4 (R57). -/
def State.bar4Bytes (s : State) (off n : Nat) : List Byte :=
  (List.range n).map (fun i =>
    let a := off + i
    if s.inService = false ∨ s.fld (PG_CTRL_USER Pg.pmc) = 0 ∨ 2 ^ 20 ≤ a then 0
    else BitVec.ofNat 8 (s.bar4Word (a / 8 * 8) / 256 ^ (a % 8)))

/-- BAR4_READ (R453, R454). -/
def execBar4Read (offset : BitVec 20) (len : Nat) (s : State) : Out :=
  finish s <|
    if s.reaches .pcie then { s with replies := { s.replies with bulk := s.bar4Bytes offset.toNat len, ep := epOf s.mps offset.toNat len 0 [] } } else s

/-- BAR4_WRITE (R96): dropped and counted; it freezes nothing. -/
def execBar4Write (_offset : BitVec 20) (_bytes : List Byte) (s : State) : Out :=
  finish s <| if s.reaches .pcie ∧ s.pwr.core ∧ s.inService then s.satFld HIF.PCIE_STAT_BAR4_WR else s

end Sys2Proof.Machine
end

