-- ==== Sys2Proof/Machine/Shadow.lean ====
section
/-!
DEFINITION. Machine/Shadow.lean: shadow copies, ARM and DISARM, commit points, and the commit of each page that has shadowed registers
(spec 04 R113 to R116 and the commit rules of chapters 06 to 18).
-/
namespace Sys2Proof.Machine

/-! ### Shadow copies and commit points (R113, R114) -/

/-- The keys of a page's registers that stand off reset, in effect or in their shadow copy. -/
def State.pageKeys (s : State) (b : Nat) : List Nat :=
  ((s.regs.map Prod.fst ++ s.shadow.map Prod.fst).filter (fun k => baseOf (k % 0x1000000) = b)).eraseDups

/-- Every RWS field of page `b` takes its shadow copy's value: the candidate that a commit is checked on. -/
def applyShadow (b : Nat) (s : State) : State :=
  (s.pageKeys b).foldl (fun t key =>
    match registerAt (key % 0x1000000) with
    | some (_, _, r, _) => t.setReg key (viewed r true (s.reg key) (s.shadowReg key))
    | none => t) s

/-- Whether a stripe of the slot is in a bay (R114). -/
def State.slotInBay (s : State) (slot : Nat) : Bool :=
  s.bays.any (fun e => match s.task e.2.task with
    | some t => outSlot t.out = slot
    | none => false)

/-- Whether a page's armed values commit at the ARM write: commit point IMMEDIATE, or one that there is none of to wait for (R114). -/
def State.commitsAtOnce (s : State) (p : PageInfo) (n : Nat) : Bool :=
  if p.commit = 0 then true
  else if p.commit = 1 then !s.slotInBay n
  else if p.commit = 2 then !s.slotRuns n
  else if p.commit = 3 then (s.port n).oper.isNone
  else false

/-- Whether a page's commit point is reached now (R114): a LANDING page commits with its slot's next landing (execLanding); the others follow the
counter, and a host step reaches what it passes (R158). -/
def State.commitPoint (s : State) (p : PageInfo) (n : Nat) : Bool :=
  s.commitsAtOnce p n ||
    (if p.commit = 1 then false
     else if p.commit = 2 then (match (s.slot n).boundary with
       | some k => decide (gridAt (s.rate n) k ≤ s.ctr)
       | none => false)
     else if p.commit = 3 then (match (s.port n).oper with
       | some g => decide (g.posAt s.ctr < s.fld PTP.INCR_INCR)
       | none => true)
     else decide (s.ctr % Config.unitsPerSec < s.fld PTP.INCR_INCR) || (s.servo.stepAt = some s.cyc && s.servo.stepCross))

/-- What a page's commit answers: the state with the armed values in effect and what follows from them, or the CODE of the first check
that fails. -/
abbrev Commit := State × Code

/-- The first CODE other than OK. -/
def firstCode : List Code → Code
  | [] => .ok
  | c :: l => if c = .ok then firstCode l else c

/-- A check that must hold. -/
def need (ok : Bool) (c : Code) : Code := if ok then .ok else c

/-! ### LANE (R192, R202) -/

/-- Whether a running flow leg or a running output's service is bound to a port (R192). -/
def State.portBound (s : State) (n : Nat) : Bool :=
  (List.range 64).any (fun f => s.fld (FLOW.CFG_KIND f) != 0
    && ((s.legOn f .a && s.legPort f .a = n) || (s.legOn f .b && s.legPort f .b = n)))
    || s.senders.any (fun x => (s.servicesOf x).any (fun v => decide (n ∈ s.portsOf v)))

/-- A commit of LANEn. -/
def commitLane (n : Nat) (s t : State) : Commit :=
  let moved : Bool := s.fld (LANE.CFG_SPEED n) != t.fld (LANE.CFG_SPEED n) || s.fld (LANE.CFG_FEC_OFF n) != t.fld (LANE.CFG_FEC_OFF n)
    || s.fld (LANE.CFG_LOOP n) != t.fld (LANE.CFG_LOOP n) || s.fld (LANE.CFG_DEEP_REST n) != t.fld (LANE.CFG_DEEP_REST n)
  let rest := t.fld (LANE.CFG_DEEP_REST n) = 1
  let code := firstCode [
    need (!(t.fld (LANE.CFG_FEC_OFF n) = 1 && t.fld (LANE.CFG_SPEED n) != 2)) .decodeError,
    need (!(rest && s.fld (LANE.CFG_DEEP_REST n) = 0
      && (t.fld (LANE.CFG_LOOP n) != 0 || t.fld (LANE.TEST_GEN n) != 0 || t.fld (LANE.TEST_CHECK n) != 0))) .decodeError,
    need (!(moved && s.portBound n)) .busy]
  if code = .ok then (laneCommitted n (s.reg (Pg.lane n + 0x40)) t, .ok) else (s, code)

/-! ### FLOW (R208, R210, R211) -/

/-- Whether an enabled leg of another context matches the same. -/
def State.legTaken (s : State) (f : Nat) (l : Leg) : Bool :=
  s.legOn f l && (List.range 64).any (fun g => decide (g ≠ f) && [Leg.a, Leg.b].any (fun m => s.legOn g m && s.legMatch g m = s.legMatch f l))

/-- A leg after a commit of its context: QUIET once enabled, OFF once disabled (R211). -/
def legCommitted (f : Nat) (l : Leg) (s t : State) : State :=
  if s.legOn f l = t.legOn f l then t
  else if t.legOn f l then (t.setFlow f ((t.flow f).setLeg l { lastAt := t.cyc, reported := false })).setFld (legStat f l) 2
  else (t.setFlow f ((t.flow f).setLeg l {})).setFld (legStat f l) 0

/-- A commit of FLOWn: checked under R208, then under R210. -/
def commitFlow (n : Nat) (s t : State) : Commit :=
  let kind := t.fld (FLOW.CFG_KIND n)
  let cfg := decide (s.reg (Pg.flow n + 0x40) ≠ t.reg (Pg.flow n + 0x40))
  let moved (l : Leg) : Bool := s.legOn n l && t.legOn n l && decide (s.legMatch n l ≠ t.legMatch n l)
  let was := s.fld (FLOW.CFG_KIND n)
  let bound := (was = 1 || was = 3) && s.slotRuns (s.fld (FLOW.CFG_SLOT n))
  let code := firstCode [
    need (kind = 0 || t.legOn n .a || t.legOn n .b) .decodeError,
    need (decide (t.legPort n .a < 2 ∧ 2 ≤ t.legPort n .b)) .decodeError,
    need (!t.legTaken n .a && !t.legTaken n .b) .decodeError,
    need (!(bound && (cfg || moved .a || moved .b))) .busy]
  if code = .ok then
    let u := legCommitted n .b s (legCommitted n .a s t)
    let u := if cfg then u.setFlow n { legA := (u.flow n).legA, legB := (u.flow n).legB } else u
    ((List.range 4).foldl (reportJoins s) u, .ok)
  else (s, code)

/-! ### CHIN (R230 to R232) -/

/-- Step 1 of R230: FMT is valid under R212. -/
def State.fmtHolds (s : State) (n : Nat) : Bool :=
  let deep := s.fld (CHIN.FMT_SAMPLING n) = 1
  decide (s.size n ≤ 2 ∧ 2 ≤ s.rate n ∧ s.rate n ≤ 12 ∧ s.fld (CHIN.FMT_TCS n) ≤ 2 ∧ s.fld (CHIN.FMT_COLOR n) ≤ 2)
    && (!deep || decide (s.size n = 0 ∧ s.rate n ≤ 9))
    && (s.fld (CHIN.FMT_TCS n) = 0 || s.fld (CHIN.FMT_COLOR n) = 2)

/-- Step 2 of R230: every substream has an enabled video flow. -/
def State.flowsHold (s : State) (n : Nat) : Bool :=
  (List.range (substreamsOf (s.size n))).all (fun b =>
    (List.range 64).any (fun f => s.fld (FLOW.CFG_KIND f) = 1 && s.fld (FLOW.CFG_SLOT f) = n && s.fld (FLOW.CFG_SUBSTREAM f) = b
      && (s.legOn f .a || s.legOn f .b)))

/-- A slot starts (R231, R23, R309, R456): ACQUIRE, every record of it new. While a Span change is pending it begins at the boundary. -/
def startSlot (n : Nat) (s : State) : State :=
  let t := { s with
    subs := s.subs.filter (fun e => e.1 / 16 ≠ n)
    stats := s.stats.filter (fun e => e.1 % 8 ≠ n)
    regs := s.regs.filter (fun e => ¬(baseOf (e.1 % 0x1000000) = Pg.stc n ∧ 0x800 ≤ e.1 % 0x1000)) }
  let t := (t.setSlot n { startCtr := s.ctr, waits := s.span.pending, sets := (s.slot n).sets }).setFld (CHIN.STAT_STATE n) 1
  let t := (t.setFld (CHIN.STAT_REPEATS n) 0).setReg (Pg.paf n + 0x80) (resetValue (Pg.paf n + 0x80))
  ((t.setFld (STC.TABLES_GEN n) 0).setFld (STC.TABLES_STALES n) 0).setFld (STC.TABLES_STALE_RUN n) 0

/-- A slot stops (R232, R23): its packets are filtered from now on, a pending table becomes active at once (R248), and the slot leaves a
pending boundary search. -/
def stopSlot (n : Nat) (s : State) : State :=
  let t := { s with subs := s.subs.filter (fun e => e.1 / 16 ≠ n) }
  let t := (t.setSlot n { sets := (s.slot n).sets }).setFld (CHIN.STAT_STATE n) 0
  freeTags (researchSpan ((List.range 2).foldl (fun t k => if t.fld (PAF.LUT_STAT_PENDING n k) = 1 then lutSwap n k t else t) t))

/-- A commit of CHINn. A stop waits for the boundary of its picture; a slot that never acquired one stops at once. -/
def commitChin (n : Nat) (s t : State) : Commit :=
  let runs := s.slotRuns n
  let run := t.fld (CHIN.CTRL_RUN n) = 1
  if runs then
    if s.reg (Pg.chin n + 0x40) ≠ t.reg (Pg.chin n + 0x40) then (s, .busy)
    else if run then (t.setSlot n { t.slot n with stopping := false }, .ok)
    else if s.slotServes n then (s, .busy)
    else if (s.slot n).boundary.isSome then (t.setSlot n { t.slot n with stopping := true }, .ok)
    else (stopSlot n t, .ok)
  else if run then
    let code := firstCode [need (t.fmtHolds n) .decodeError, need (t.flowsHold n) .decodeError, need (t.admits n) .busy]
    if code = .ok then (startSlot n t, .ok) else (s, code)
  else (t, .ok)

/-! ### Mezzanine figures (R334, R337, R340) -/

/-- MZSTATk of a configured mezzanine output as its settings stand. -/
def showMzstat (n : Nat) (s : State) (k : Nat) : State :=
  let o := mezzanine n k
  if s.fld (STC.MZOUT_COLS n k) = 0 ∨ s.fld (STC.MZOUT_ROWS n k) = 0 then s.setReg (Pg.stc n + 0x380 + 8 * k) 0
  else
    let t := s.setFld (STC.MZSTAT_HDR_BYTES n k) (min 160 (max 49 (Config.hdrBytes o)))
    let t := t.setFld (STC.MZSTAT_D_MIN n k) (t.mzDMin o t.ctuNow)
    t.setFld (STC.MZSTAT_BAND_KBPS n k) (min (2 ^ 27 - 1) (t.bandRate o t.ctuNow / 1000).ceil.toNat)

/-- MZSTAT of every mezzanine output of a slot. -/
def showMz (n : Nat) (s : State) : State := (List.range 16).foldl (showMzstat n) s

/-! ### PAF (R244) -/

/-- The checks of R244 on a copy: conversion FORMAT keeps colour, PQ and HLG need BT.2100. -/
def copyHolds (conv color tcs fmtColor fmtTcs : Nat) : Bool :=
  (conv = 1 || (color = fmtColor && tcs = fmtTcs)) && (tcs = 0 || color = 2)

/-- A commit of PAFn. -/
def commitPaf (n : Nat) (s t : State) : Commit :=
  let fc := s.fld (CHIN.FMT_COLOR n)
  let ft := s.fld (CHIN.FMT_TCS n)
  let mz := (List.range 16).map (mezzanine n)
  let live := mz.filter (fun o => s.outRuns o)
  let code := firstCode [
    need (t.fld (PAF.MZE_COPY_EN n) = 0
      || (copyHolds (t.fld (PAF.MZE_COPY_CONV n)) (t.fld (PAF.MZE_COPY_COLOR n)) (t.fld (PAF.MZE_COPY_TCS n)) fc ft
          && (t.fld (PAF.MZE_COPY_SAMPLING n) = 0 || s.fld (CHIN.FMT_SAMPLING n) = 1))) .decodeError,
    need (t.fld (PAF.PROXY_EN n) = 0
      || (copyHolds (t.fld (PAF.PROXY_CONV n)) (t.fld (PAF.PROXY_COLOR n)) (t.fld (PAF.PROXY_TCS n)) fc ft
          && decide (t.fld (PAF.PROXY_SUBSTREAM n) < substreamsOf (s.size n)))) .decodeError,
    need (!(s.outRuns (proxyOut n) && (t.fld (PAF.PROXY_EN n) = 0 || s.fld (PAF.PROXY_SUBSTREAM n) != t.fld (PAF.PROXY_SUBSTREAM n)))) .busy,
    need (live = [] || (s.mzWidth n = t.mzWidth n && s.mzHeight n = t.mzHeight n && s.mz444 n = t.mz444 n)) .busy,
    need (live.all (fun o => decide (t.mzDMin o t.ctuNow ≤ t.outD o))) .busy]
  if code = .ok then (showMz n t, .ok) else (s, code)

/-! ### STC (R258 to R260, R304 to R306, R341, R484) -/

/-- Whether a running output's settings change, or a running mezzanine output loses a dimension of its grid (R305, R341). -/
def outMoves (s t : State) (o : Nat) : Bool :=
  let n := outSlot o
  if s.outRuns o = false then false
  else if o < 128 then
    decide (bitsOf (s.reg (STC.OUT_D n (o % 16)).key) 0 47 ≠ bitsOf (t.reg (STC.OUT_D n (o % 16)).key) 0 47)
  else if o < 136 then
    decide (bitsOf (s.reg (STC.PROXY_OUT_D n).key) 0 47 ≠ bitsOf (t.reg (STC.PROXY_OUT_D n).key) 0 47)
  else
    let k := (o - 136) % 16
    decide (bitsOf (s.reg (STC.MZOUT_D n k).key) 0 47 ≠ bitsOf (t.reg (STC.MZOUT_D n k).key) 0 47)

/-- The outputs of a slot in the order in which their starts are checked. -/
def slotOuts (n : Nat) : List Nat := (List.range 16).map (contribution n) ++ [proxyOut n] ++ (List.range 16).map (mezzanine n)

/-- RUN of an output in effect. -/
def State.runBit (s : State) (o : Nat) : Bool :=
  if o < 128 then s.fld (STC.OUT_RUN (o / 16) (o % 16)) = 1
  else if o < 136 then s.fld (STC.PROXY_OUT_RUN (o - 128)) = 1
  else s.fld (STC.MZOUT_RUN ((o - 136) / 16) ((o - 136) % 16)) = 1

/-- What a start or a stop of an output changes beside its RUN (R300, R305, R389, R409). A started output's first picture opens it; a stopped
mezzanine output's pending map becomes active at once (R343). -/
def outSwitch (s : State) (t : State) (o : Nat) : State :=
  if s.outRuns o = t.outRuns o then t
  else if t.outRuns o then
    bindSender (.out o) (t.onOut o (fun r => { r with fresh := true, share := none }))
  else
    let u := unbindSender (.out o) s t
    let k := s.outSub o
    freeTags (if isMezz o ∧ u.fld (STC.MZMAP_STAT_PENDING (outSlot o) k) = 1 then mapSwap (outSlot o) k none u else u)

/-- A commit of STCn. The pooled groups' figures follow the members that it starts or stops (R306). -/
def commitStc (n : Nat) (s t : State) : Commit :=
  let outs := slotOuts n
  let chroma := t.fld (STC.CODEC_CHROMA n)
  let starts := outs.filter (fun o => !s.outRuns o && t.runBit o)
  let coded := (List.range 16).any (fun k => s.outRuns (contribution n k))
  let code := firstCode ([
    need (decide (chroma ≤ 2) && !(t.fld (STC.CODEC_CODEC n) = 1 && chroma = 2)
      && !(chroma = 2 && s.fld (CHIN.FMT_SAMPLING n) = 0)) .decodeError,
    need (t.fld (STC.STAT_SEL_PROXY n) = 1 || decide (t.fld (STC.STAT_SEL_SUBSTREAM n) < substreamsOf (s.size n))) .decodeError,
    need (!(coded && decide (s.reg (Pg.stc n + 0x1C0) ≠ t.reg (Pg.stc n + 0x1C0)))) .busy,
    need (!(s.outRuns (proxyOut n) && decide (s.reg (Pg.stc n + 0x1C8) ≠ t.reg (Pg.stc n + 0x1C8)))) .busy,
    need (!(s.slotServes n && decide (s.reg (Pg.stc n + 0x48) ≠ t.reg (Pg.stc n + 0x48)))) .busy,
    need (!outs.any (outMoves s t)) .busy])
  if code ≠ .ok then (s, code)
  else
    let u := starts.foldl (fun u o => u.onOut o (fun r => { r with reqCtu := t.ctuNow })) (showMz n t)
    let code := firstCode (starts.map (fun o => if isMezz o then u.mzStartCheck o else u.startCheck o))
    if code ≠ .ok then (s, code) else (showPools (outs.foldl (outSwitch s) u), .ok)

/-! ### GATE (R401 to R404) -/

/-- The admin list's first `len` entries. -/
def State.adminList (s : State) (n len : Nat) : List (Nat × Nat) :=
  (List.range len).map (fun i => (s.fld (GATE.ENT_DATA_GATES n i), s.fld (GATE.ENT_DATA_DURATION n i)))

/-- The start time of a list with base and cycle in counter units, and whether the base was past or too near (R404). -/
def listStart (ctr base cycle : Nat) : Nat × Bool :=
  let lo := ctr + ns 4000
  if lo ≤ base then (base, false) else (base + ceilDiv (lo - base) cycle * cycle, true)

/-- A commit of GATEn (R402, R404). -/
def commitGate (n : Nat) (s t : State) : Commit :=
  let len := t.fld (GATE.ADMIN_CTRL_LEN n)
  let cycle := t.fld (GATE.ADMIN_CYCLE_CYCLE n)
  let baseNs := t.fld (GATE.ADMIN_BASE_NS_NS n)
  if t.fld (GATE.ADMIN_CTRL_EN n) = 0 then
    let u := settleWaits n t
    let u := showStart n (u.port n).lastStart (u.setPort n { u.port n with oper := none, next := none, since := u.ctr })
    ((showGates n (u.setFld (GATE.STAT_CFG_PAST n) 0)).raise (Pg.gate n) 0, .ok)
  else if len = 0 then (s, .zeroLength)
  else if 512 < len ∨ cycle < 1000 ∨ 1000000000 < cycle ∨ 1000000000 ≤ baseNs then (s, .decodeError)
  else
    let entries := t.adminList n len
    if entries.all (fun e => e.2 = 0) then (s, .zeroLength)
    else
      let base := t.fld (GATE.ADMIN_BASE_SEC_SEC n) * Config.unitsPerSec + ns baseNs
      let (start, past) := listStart t.ctr base (ns cycle)
      let g : GateList := { entries := entries, cycle := cycle, base := start, start := start }
      if t.listHolds n g = false then (s, .busy)
      else
        let u := showStart n start (t.setPort n { t.port n with next := some g })
        let u := showGates n (u.setFld (GATE.STAT_CFG_PAST n) (b2n past))
        (if past then u.raise (Pg.gate n) 1 else u, .ok)

/-! ### REF, PDM and AUDC (R180, R182, R431, R439, R442) -/

/-- Step 2 of R442. -/
def State.flowShape (s : State) (f : Nat) : Bool :=
  let p := s.fld (AUDC.TX_CFG_PTIME_SMP f)
  let c := s.fld (AUDC.TX_CFG_COUNT f)
  let k := if s.fld AUDC.CFG_RATE = 1 then 2 else 1
  (p = 6 * k || p = 48 * k) && decide (1 ≤ c ∧ c ≤ 64 ∧ s.fld (AUDC.TX_CFG_FIRST f) + c ≤ 256 ∧ 3 * c * p ≤ 1440) && s.flowDelayHolds f

/-- The checks of a send flow's start (R442). -/
def State.flowCheck (s : State) (f : Nat) : Code :=
  if s.fld (AUDC.TX_CFG_PTIME_SMP f) = 0 then .zeroLength
  else if s.flowShape f = false then .decodeError
  else s.serviceChecks (.flow f)

/-- A send flow after a commit: its settings as committed; started, its first packet begins at this second; stopped, its last one ends at
or before it (R442). -/
def flowCommitted (s : State) (t : State) (f : Nat) : State :=
  let was := s.fld (AUDC.TX_CFG_RUN f) = 1
  let now := t.fld (AUDC.TX_CFG_RUN f) = 1
  let second := secOf t.ctr * t.audioHz
  let old := Store.at t.audio.sends none f
  let shape (r : SendRun) : SendRun := { r with
    first := t.fld (AUDC.TX_CFG_FIRST f), count := t.fld (AUDC.TX_CFG_COUNT f), ptime := t.fld (AUDC.TX_CFG_PTIME_SMP f)
    delay := t.fld (AUDC.TX_TIME_DELAY f), queue := t.fld (AUDC.TX_CFG_QUEUE f), pt := t.fld (AUDC.TX_RTP_PT f)
    ssrc := t.fld (AUDC.TX_RTP_SSRC f) }
  let put (r : Option SendRun) : State := t.onAudio (fun a => { a with sends := Store.put a.sends none f r })
  if now then
    let r : SendRun := match old with
      | some r => if was then r else { r with next := second, seq := 0, until_ := none }
      | none => { next := second, first := 0, count := 0, ptime := 0, delay := 0, queue := 0, pt := 0, ssrc := 0 }
    let u := put (some (shape r))
    if was then rebindSender (.flow f) s u else bindSender (.flow f) u
  else if was then unbindSender (.flow f) s (put (old.map (fun r => { r with until_ := some second })))
  else t

/-- A commit of WCLK_CFG that changes it restarts the monitor (R180, R439). -/
def wclkRestart (s : State) : State :=
  showPorts ((s.onAudio (fun a => { a with wclk := {} })).setFld AUDC.WCLK_STAT_STATE (s.fld AUDC.WCLK_CFG_ENABLE))

/-- A commit of AUDC. -/
def commitAudc (s t : State) : Commit :=
  let flows := List.range 32
  let starts := flows.filter (fun f => s.fld (AUDC.TX_CFG_RUN f) = 0 && t.fld (AUDC.TX_CFG_RUN f) = 1)
  let code := firstCode (starts.map (fun f => t.flowCheck f) ++ [need t.delaysHold .decodeError])
  if code ≠ .ok then (s, code)
  else
    let u := flows.foldl (flowCommitted s) t
    let u := if s.audioHz = u.audioHz then u else u.onAudio (fun a => { a with stepN := none })
    (if s.reg 0xA05048 = t.reg 0xA05048 then u else wclkRestart u, .ok)

/-! ### The commit (R115) -/

/-- The commit of a page with its armed values: the checks and what follows, per page. -/
def commitPage (p : PageInfo) (n : Nat) (s t : State) : Commit :=
  match p.kind with
  | .lane => commitLane n s t
  | .flow => commitFlow n s t
  | .chin => commitChin n s t
  | .paf => commitPaf n s t
  | .stc => commitStc n s t
  | .gate => commitGate n s t
  | .audc => commitAudc s t
  | .ref => (if s.reg 0x203040 = t.reg 0x203040 then t else refRestart t, .ok)
  | _ => (t, .ok)

/-- The commit of page `b` (R115). -/
def commit (p : PageInfo) (n : Nat) (s : State) : State :=
  let b := p.base n
  let r := commitPage p n s (applyShadow b s)
  let t := (r.1.setFld (PG_SHADOW_BUSY b) 0).setFld (PG_SHADOW_RESULT b) r.2.num
  if r.2 = .ok then t.wrapFld (PG_SHADOW_GEN b) else keepCode (b + 0x38) r.2 t

/-- A write of PG_SHADOW (R113, R116): `atCommit` says that the page's commit point falls in the cycle of the write. -/
def shadowWrite (p : PageInfo) (n : Nat) (view arm disarm atCommit : Bool) (s : State) : State × Code :=
  let b := p.base n
  let busy := s.fld (PG_SHADOW_BUSY b) = 1
  let t := s.setFld (PG_SHADOW_VIEW b) (b2n view)
  if arm ∧ disarm then (s, .decodeError)
  else if arm then
    if p.kind = .gate ∧ s.fld (GATE.STAT_PENDING n) = 1 then (s, .busy)
    else if busy then (t, .ok)
    else if s.commitsAtOnce p n then (commit p n (t.setFld (PG_SHADOW_BUSY b) 1), .ok)
    else (t.setFld (PG_SHADOW_BUSY b) 1, .ok)
  else if disarm ∧ busy then
    if atCommit then (commit p n t, .stale) else (t.setFld (PG_SHADOW_BUSY b) 0, .ok)
  else (t, .ok)

/-- The page at a directory index. -/
def State.shadowOp (s : State) (path : Path) (idx : Nat) (data : Nat) (arm disarm view atCommit : Bool) : Out :=
  match pageByIndex idx with
  | none => finish s s
  | some (p, n) =>
    let addr := p.base n + 0x38
    finishWrite path s (hostWrite path addr (BitVec.ofNat 48 data) true (measuredAt addr) (shadowWrite p n view arm disarm atCommit) s)

/-- SHADOW_ARM (R113, R114). -/
def execShadowArm (path : Path) (page : Fin 202) (view : Bool) (s : State) : Out :=
  s.shadowOp path page.val (2 + 8 * b2n view) true false view false

/-- SHADOW_DISARM (R116). -/
def execShadowDisarm (path : Path) (page : Fin 202) (view : Bool) (atCommit : Bool) (s : State) : Out :=
  s.shadowOp path page.val (4 + 8 * b2n view) false true view atCommit

/-- SHADOW_COMMIT (R114, R115): an armed page's commit point is reached. -/
def execShadowCommit (page : Fin 202) (s : State) : Out :=
  finish s <|
    match pageByIndex page.val with
    | none => s
    | some (p, n) =>
      if s.pwr.core ∧ s.fld (PG_SHADOW_BUSY (p.base n)) = 1 ∧ s.commitPoint p n then commit p n s else s

end Sys2Proof.Machine
end

