-- ==== Sys2Proof/Machine/Seconds.lean ====
section
/-!
DEFINITION. Machine/Seconds.lean: TIME_CLK cycles, the second edge and the per-second statistics, and the host step of the time counter
(spec 06 R158, R162, R174, R175, R184, 07 R205, R206, 08 R220, R221, R229, R233, 16 R394, R412, 18 R446, 19 R457).
-/
namespace Sys2Proof.Machine

/-! ### Per-second statistics (R205, R220, R221, R233, R412, R457) -/

/-- Running counts latched into the RO registers at `keys`, and restarted. -/
def latchKeys (keys : List Nat) (s : State) : State :=
  keys.foldl (fun t k => (t.setReg k (BitVec.ofNat 48 (min (2 ^ 48 - 1) (t.accAt k)))).setAcc k 0) s

/-- Registers of a page from offset `lo` to `hi` in steps of 8. -/
def keysFrom (b lo hi : Nat) : List Nat := (List.range ((hi - lo) / 8 + 1)).map (fun i => b + lo + 8 * i)

/-- MACn's block latches (R205); a second with an uncorrected codeword raises FEC_DEGRADED (R206). -/
def latchMac (s : State) (n : Nat) : State :=
  let bad := decide (0 < s.accAt (MAC.FEC_UNCORR_CW_V n).key)
  let t := (latchKeys (keysFrom (Pg.mac n) 0x108 0x180) s).wrapFld (MAC.SEQ_V n)
  if bad then t.raise (Pg.mac n) 0 else t

/-- The mean skew of an interval, in ns, from differences in units of 0.25 ns: which way a remainder rounds is not stated. -/
def meanSkew (f : Flow) (s : State) : Int × State :=
  let den : Int := 4 * (f.pairs : Int)
  if f.pairs = 0 then (0, s)
  else if f.skewSum % den = 0 then (f.skewSum / den, s)
  else
    let (up, t) := s.freeBool
    (f.skewSum / den + (b2n up : Nat), t)

/-- FLOWn's block latches with its skew and its smallest margin (R220, R221, R233). A video flow in whose interval no stripe closed has
no margin: what the register then reads is not stated. Copies older than the interval are forgotten. -/
def latchFlow (s : State) (n : Nat) : State :=
  let f := s.flow n
  let (skew, t) := meanSkew f s
  let t := t.setFld (FLOW.STAT_SKEW n) (unsignedOf 24 skew)
  let t := if 150000 < skew.natAbs then t.raise (Pg.flow n) 2 else t
  let t := (latchKeys (keysFrom (Pg.flow n) 0x108 0x158) t).wrapFld (FLOW.SEQ_V n)
  let (margin, t) : Nat × State := match f.marginMin with
    | some m => (unsignedOf 48 m, t)
    | none => if t.fld (FLOW.CFG_KIND n) = 1 then ((t.freeWord).1.toNat, (t.freeWord).2) else (0, t)
  let t := t.setFld (FLOW.MARGIN_MIN_V n) margin
  t.setFlow n { f with
    skewSum := 0, pairs := 0, marginMin := none, seen := f.seen.filter (fun e => decide (quarters t.ctr < e.2.at0 + 4000000000)) }

/-- GATEn's block latches; a late launch raises LAUNCH_LATE (R412). -/
def latchGate (s : State) (n : Nat) : State :=
  let late := decide (0 < s.accAt (GATE.LAUNCH_LATE_V n).key)
  let t := (latchKeys (keysFrom (Pg.gate n) 0x108 0x168) s).wrapFld (GATE.SEQ_V n)
  if late then t.raise (Pg.gate n) 2 else t

/-- Every per-second block latches together (R457). -/
def latchSecond (s : State) : State :=
  let t := (List.range 4).foldl latchMac s
  let t := (List.range 64).foldl latchFlow t
  (List.range 4).foldl latchGate t

/-! ### TIME_CLK cycles (R158, R162) -/

/-- MCLK_CFG as it stands takes effect at a second of the counter (R184): after a change the land is low for one period of the new clock from the
instant `base` on, and until the clock's next edge. -/
def applyMclk (base : Nat) (s : State) : State :=
  let sel := s.fld CLK.MCLK_CFG_SEL
  let on := decide (s.fld CLK.MCLK_CFG_OUT_EN = 1)
  if s.pwr.core = false ∨ (sel = s.clk.mclkSel ∧ on = s.pins.mclkOut) then s
  else
    { s with
      clk := { s.clk with mclkSel := sel, mclkFrom := mediaEdgeAt sel (ceilDiv (base * mediaHz sel) Config.unitsPerSec + 1) }
      pins := { s.pins with mclkOut := on } }

/-- SEC increments by counting (R47, R162, R184, R430, R457). -/
def secondEdge (s : State) : State :=
  let t := { s with pins := { s.pins with ppsOut := true, ppsAt := s.cyc } }
  let t := (applyMclk (secOf t.ctr * Config.unitsPerSec) t).onAudio (fun a => { a with missed := false })
  if t.inService then latchSecond t else t

/-- The Concourse's traffic over `n` cycles from `start` on (R427, R449), which no command spells: stalls and transactions of each master, and the
Gallery's requests that meet at a bank, are free. -/
def traffic (start n : Nat) (s : State) : State :=
  let t := (List.range 31).foldl (fun u m =>
    (u.count 0 0x10 m (min (2 * n) (Config.stalls start n m))).count 0 0x11 m (min (2 * n) (Config.transactions start n m))) s
  t.wrapFld GAL.CONFLICTS_COUNT (conflicts ((Config.bankPairs start n).take (512 * n)))

/-- `n` TIME_CLK cycles in which no second of the counter begins but at their end: the counter, the counters of cycles and of the Concourse's
traffic (R449), the cycles an announcement is held (R326), the sample instants. The losses that waited for the cycle's end come first (R353). -/
def advance (n : Nat) (s : State) : State :=
  let s := endCycle s
  let before := s.ctr
  let t := { s with cyc := s.cyc + n }
  if t.pwr.aux = false then t
  else
    let t := { t with ctr := wrapCtr (before + n * t.fld PTP.INCR_INCR) }
    let t := degrade (if t.pwr.core then t.count 0 1 0 n else t)
    let t := if t.held = [] then t else (t.satFld DSP.STALL_CYCLES (2 * n)).count 7 2 0 (2 * n)
    let t := if t.inService then samplesPassed before (scanOn s.cyc n (traffic s.cyc n t)) else t
    if secOf before = secOf t.ctr then t else secondEdge t

/-- One TIME_CLK cycle. -/
def tick (s : State) : Out := finish s (advance 1 s)

/-- TIME_CLK cycles to the next second of the counter. -/
def State.cyclesToSecond (s : State) : Nat :=
  ceilDiv (Config.unitsPerSec - s.ctr % Config.unitsPerSec) (max 1 (s.fld PTP.INCR_INCR))

/-- PTP_SECOND (R162): the counter counts on to its next second. -/
def execPtpSecond (s : State) : Out :=
  finish s <| if s.pwr.aux then advance s.cyclesToSecond s else s

/-! ### The host step (R174, R175) -/

/-- An instant moved by a step of `d` counter units. -/
def moved (neg : Bool) (d x : Nat) : Nat :=
  let m := 2 ^ 48 * Config.unitsPerSec
  if neg then (x + m - d % m) % m else (x + d) % m

/-- What a step does to launches (R290, R394): those of held packets, and of stripes announced and not yet packed, move with it. -/
def stepLaunches (neg : Bool) (d : Nat) (s : State) : State :=
  { s with
    held := s.held.map (fun a => { a with shift := if neg then a.shift - d else a.shift + d })
    queues := s.queues.map (fun e => (e.1, e.2.map (fun k => { k with launch := k.launch.map (moved neg d) })))
    tasks := s.tasks.map (fun e => (e.1, { e.2 with launchAt := moved neg d e.2.launchAt }))
    outs := s.outs.map (fun e => (e.1, { e.2 with
      last := e.2.last.map (moved neg d)
      rates := e.2.rates.map (fun r => { r with launch := moved neg d r.launch }) })) }

/-- What a step does to a running slot (R175, R216, R229): each substream expects whatever arrives next, and the next picture boundary is
the next grid point. A slot that waits for a Span boundary expects nothing before it (R23). -/
def stepSlot (s : State) (n : Nat) : State :=
  if s.slotRuns n = false then s
  else
    let t := if (s.slot n).waits then s else (List.range (substreamsOf (s.size n))).foldl (fun t b =>
      t.setSub n b { t.sub n b with stepped := (t.sub n b).stepped + 1 }) s
    let r := t.slot n
    t.setSlot n { r with startCtr := t.ctr, boundary := r.boundary.map (fun _ => gridFrom (t.rate n) t.ctr) }

/-- What a step does to a port's gate lists (R394, R404): a pending start that is past or too near is found anew. -/
def stepGate (s : State) (x : Nat) : State :=
  let s := s.setPort x { s.port x with since := s.ctr }
  match (s.port x).next with
  | none => showGates x s
  | some g =>
    let (start, past) := listStart s.ctr g.start (ns g.cycle)
    if past then
      let t := showStart x start (s.setPort x { s.port x with next := some { g with start := start } })
      let t := t.setFld (GATE.STAT_CFG_PAST x) 1
      (showGates x t).raise (Pg.gate x) 1
    else showGates x s

/-- What a step does to the media clock output (R184): a low period that runs on keeps its length, and otherwise the clock goes on at the stepped
counter; a change whose second the step reached takes effect. -/
def stepMclk (neg : Bool) (d before : Nat) (s : State) : State :=
  let t := { s with clk := { s.clk with mclkFrom := if before < s.clk.mclkFrom then moved neg d s.clk.mclkFrom else 0 } }
  if secOf before = secOf t.ctr then t else applyMclk t.ctr t

/-- The region maps replaced before a step: its pictures were counted on grid points that no longer hold. -/
def stepMaps (s : State) : State := { s with outs := s.outs.map (fun e => (e.1, { e.2 with mapsBefore := [] })) }

/-- The step of the counter, and what follows from it in the same cycle. -/
def timeStep (neg : Bool) (n : Nat) (s : State) : State :=
  let sec := s.fld PTP.STEP_SEC_SEC
  let d := sec * Config.unitsPerSec + ns n
  let t := (List.range 4).foldl (fun t x => settleWaits x t) s
  let t := latchSecond t
  let t := stepCounter neg sec n t
  let t := stepMclk neg d s.ctr t
  let t := stepMaps (stepLaunches neg d t)
  let t := (List.range 8).foldl stepSlot t
  let t := (List.range 4).foldl stepGate t
  let t := t.running.foldl (fun t o => t.onOut o (fun r => { r with pcrDisc := true })) t
  let t := researchSpan (stepAudio s.ctr t)
  if neg then t.raise Pg.ptp 4 else t

/-- A write of PTP.STEP_CTRL (R174). A step is applied in the cycle of its write and takes that TIME_CLK cycle: a GO in the same cycle finds it
pending. -/
def stepCtrlWrite (go neg : Bool) (n : Nat) (s : State) : State × Code :=
  if 1000000000 ≤ n then (s, .decodeError)
  else if go ∧ s.servo.stepAt = some s.cyc then (s, .busy)
  else if go ∧ s.fld PTP.STEP_SEC_SEC = 0 ∧ n = 0 then (s, .zeroLength)
  else
    let t := (s.setFld PTP.STEP_CTRL_NEG (b2n neg)).setFld PTP.STEP_CTRL_NS n
    (if go then timeStep neg n t else t, .ok)

/-- TIME_STEP (R174, R175): a write of STEP_CTRL with GO set. -/
def execTimeStep (path : Path) (neg : Bool) (ns : BitVec 30) (s : State) : Out :=
  finishWrite path s
    (hostWrite path 0x200080 (BitVec.ofNat 48 (2 ^ 32 + b2n neg * 2 ^ 31 + ns.toNat)) true true (stepCtrlWrite true neg ns.toNat) s)

end Sys2Proof.Machine
end

