-- ==== Sys2Proof/Machine/Access.lean ====
section
/-!
DEFINITION. Machine/Access.lean: what a write of each register does (spec 04 R99 to R117, 22 R478, R479, and the rule of each register
that has a behaviour of its own).
-/
namespace Sys2Proof.Machine

/-! ### Fields (R7, R99, R100, R113) -/

/-- A register after a write: RW fields take the data, W1C bits are cleared by ones, the rest stays. -/
def RegDesc.written (r : RegDesc) (old data : Reg) : Reg :=
  r.fields.foldl (fun v f => match f.acc with
    | .rw => withBits v f.lo f.w (bitsOf data f.lo f.w)
    | .w1c => withBits v f.lo f.w (bitsOf v f.lo f.w - (bitsOf v f.lo f.w &&& bitsOf data f.lo f.w))
    | _ => v) old

/-- A shadow copy after a write: RWS fields take the data. -/
def RegDesc.armed (r : RegDesc) (old data : Reg) : Reg :=
  r.fields.foldl (fun v f => if f.acc = .rws then withBits v f.lo f.w (bitsOf data f.lo f.w) else v) old

/-- A write of register `r`, behind `key` on the page at `b`, as its fields' types say. -/
def writeFields (b : Nat) (r : RegDesc) (key : Nat) (data : Reg) (s : State) : State × Code :=
  if r.fields.all (fun f => f.acc = .ro) ∨ r.accepts data = false then (s, .decodeError)
  else
    let t := s.setReg key (r.written (s.reg key) data)
    if r.fields.any (fun f => f.acc = .rws) then
      if s.fld (PG_SHADOW_BUSY b) = 1 then (s, .busy) else (t.setShadow key (r.armed (s.shadowReg key) data), .ok)
    else (t, .ok)

/-- A write of the register at an address as its fields' types say. -/
def plainWrite (addr : Nat) (data : Reg) (s : State) : State × Code :=
  match registerAt addr with
  | none => (s, .decodeError)
  | some (p, n, r, _) => writeFields (p.base n) r (s.keyAt addr r n) data s

/-- An operation that follows only an accepted one. -/
def thenDo (r : State × Code) (f : State → State) : State × Code := if r.2 = .ok then (f r.1, .ok) else r

/-- A write whose candidate state must pass a check. -/
def provided (ok : State → Bool) (c : Code) (s : State) (r : State × Code) : State × Code :=
  if r.2 = .ok ∧ ok r.1 = false then (s, c) else r

/-! ### SOFT_RESET (R112, R472) -/

/-- Whether a running output's audio comes from a unit (R444): kind 1 the microphones, 2 a TDM port. -/
def State.audioServes (s : State) (kind unit : Nat) : Bool :=
  s.running.any (fun o => decide (o < 136) && decide (s.fld (ASM.OD2_AUD_PID o) ≠ 0) &&
    (List.range (2 * s.fld (AUDC.TS_CFG_PAIRS o))).any (fun i =>
      let e := s.fld (AUDC.TS_CFG_FIRST o) + i
      decide (s.fld (AUDC.CH_SRC_KIND e) = kind) && (kind = 1 || s.fld (AUDC.CH_SRC_UNIT e) = unit)))

/-- Whether a page's block serves a running output (R112): a bay, engine or entropy-assembly unit while it holds a task, a slot's page
while an output of the slot runs, any other while it takes part in producing or carrying a running output (log entry 60). -/
def State.serves (s : State) (p : PageInfo) (n : Nat) : Bool :=
  let any := !s.running.isEmpty
  let senders := s.running.map Sender.out
  match p.kind with
  | .chin => s.slotServes n
  | .paf => s.slotServes n
  | .stc => s.slotServes n
  | .bay => (s.runningOn .bays n).isSome
  | .mze => (s.runningOn .mze n).isSome
  | .eau => (s.runningOn .assembly n).isSome || s.floors.any (fun e => e.1 = n)
  | .flow => s.fld (FLOW.CFG_KIND n) != 0 && s.slotServes (s.fld (FLOW.CFG_SLOT n)) && (s.legOn n .a || s.legOn n .b)
  | .lane => any && s.portBound n
  | .mac => any && s.portBound n
  | .sds => any && decide (n < 16) && s.portBound (n / 4)
  | .gate => senders.any (fun x => (s.servicesOf x).any (fun v => decide (n ∈ s.portsOf v)))
  | .shp => senders.any (fun x => (s.servicesOf x).any (fun v => decide (v / 32 = n) || decide (n ∈ s.portsOf v)))
  | .que => senders.any (fun x => (s.usesOf x).any (fun u => u.queue / 1024 = n))
  | .pdm => s.audioServes 1 0
  | .tdm => s.audioServes 2 n
  | .audc => s.running.any (fun o => decide (o < 136) && s.fld (ASM.OD2_AUD_PID o) != 0)
  | .fab => any
  | .ptp => any
  | .clk => any
  | .arcc => any
  | .dsp => any
  | .asm => any
  | .seal => any
  | .hbm => any
  | .gal => any
  | _ => false

/-- The registers and shadow copies of page `b` return to reset, its counts since cold reset, READY or slot start kept; the counts of the running
second end, and no CODE waits on it. -/
def pageReset (p : PageInfo) (b : Nat) (s : State) : State :=
  let counts := coldCounts p.kind ++ readyCounts p.kind
  let mine (k : Nat) : Bool := baseOf (k % 0x1000000) = b
  { s with
    regs := s.regs.foldl (fun m e => Store.set resetValue m e.1 (if mine e.1 then keepCounts counts e.1 e.2 else e.2)) []
    shadow := s.shadow.filter (fun e => !mine e.1)
    acc := s.acc.filter (fun e => !mine e.1)
    replies := { s.replies with codes := s.replies.codes.filter (fun e => baseOf e.1 ≠ b) } }

/-- The state of the block behind a page returns to reset. What the page's registers only show (retired and frozen engines, the PCIe link,
fuses) is shown again. -/
def unitReset (p : PageInfo) (n : Nat) (s t : State) : State :=
  let b := p.base n
  let keep (addr : Nat) (u : State) : State := u.setReg addr (s.reg addr)
  match p.kind with
  | .boot => keep (b + 0x50) t
  | .sec => showFuses ({ t with sec := { fuse := s.sec.fuse, measured := s.sec.measured, count := s.sec.count } }.setFld
      SEC.FUSE_STAT_BUSY (b2n s.sec.fuse.isSome))
  | .hif => hifReset t
  | .hbm => (List.range 32).foldl (fun u k => u.setPc (32 * n + k) { since := s.cyc, busyAt := s.cyc }) t
  | .chk => { t with scan := none, chk := [] }
  | .pcie => keep (b + 0x40) t
  | .lane => laneEnable n true (laneEnable n false t)
  | .mac => keep (b + 0x58) t
  | .sds => keep (b + 0x50) t
  | .ptp => ({ t with servo := {} }.setFld PTP.INCR_INCR (s.fld PTP.INCR_INCR)).setFld PTP.FREQ_ADJ_PPB (s.fld PTP.FREQ_ADJ_PPB)
  | .ref => refRestart t
  | .chin => stopSlot n t
  | .flow => { t with flows := Store.put t.flows {} n {}, anc := t.anc.filter (fun e => e.1 ≠ n) }
  | .paf => { t with
      passes := t.passes.filter (fun x => x.ann.slot ≠ n)
      luts := t.luts.filter (fun e => e.1 / 4 ≠ n)
      lutBad := t.lutBad.filter (fun e => e.1 / 2 ≠ n)
      slots := Store.put t.slots {} n { t.slot n with sets := [] }
      loads := t.loads.filter (fun e => 16 ≤ e.1 ∨ e.1 / 2 ≠ n) }
  | .bay => settle (showBay n { t with bayLog := Store.put t.bayLog {} n {} })
  | .arcc => keep (b + 0x40) t
  | .mze => settle (showMze n { t with mzeLog := Store.put t.mzeLog {} n {} })
  | .stc => { t with
      maps := t.maps.filter (fun e => e.1 / 32 ≠ n)
      loads := t.loads.filter (fun e => e.1 < 16 ∨ (e.1 - 16) / 16 ≠ n)
      rates := t.rates.filter (fun e => e.1 / 2 ≠ n)
      stats := t.stats.filter (fun e => e.1 % 8 ≠ n) }
  | .dsp =>
    let u := { t with tasks := [], tags := [], floorQ := [], span := {} }
    if u.fld KPR.THERM_STAT_THROTTLE = 1 then throttleSpan u else u
  | .seal => { t with sealSnap := {} }
  | .gate => { t with ports := Store.put t.ports {} n { t.port n with oper := none, next := none } }
  | .shp => { t with
      buckets := t.buckets.filter (fun e => ¬((20000 ≤ e.1 ∧ e.1 < 30000 ∧ (e.1 - 20000) / 64 = n) ∨ (30000 ≤ e.1 ∧ (e.1 - 30000) / 8 = n)))
      svcs := t.svcs.filter (fun e => e.1 / 32 ≠ n) }
  | .que => { t with
      queues := t.queues.filter (fun e => e.1 / 1024 ≠ n)
      buckets := t.buckets.filter (fun e => ¬(e.1 < 20000 ∧ e.1 / 2048 = n)) }
  | .tdm => startPort n (t.setTdm n none)
  | .audc => { t with audio := { ports := t.audio.ports } }
  | _ => t

/-- The Concourse master that a page owns (R127). -/
def ownerOf (b : Nat) : Option Nat := (List.range 31).find? (fun m => decide (b ∈ ownedPages m))

/-- A write of PG_CTRL.SOFT_RESET (R112, R147, R472): the block and its settings return to reset, and the master that the page owns is
drained, SOFT_RESET reading 1 until the drain ends. -/
def softReset (p : PageInfo) (n : Nat) (s : State) : State × Code :=
  let b := p.base n
  if p.kind = .kpr ∨ s.serves p n then (s, .busy)
  else if p.kind = .dir then (s, .ok)
  else
    let t := unitReset p n s (pageReset p b s)
    match ownerOf b with
    | some m => ((masterReset m t).setFld (PG_CTRL_SOFT_RESET b) 1, .ok)
    | none => (t, .ok)

/-! ### PG_CTRL (R109, R287, R479) -/

/-- A write of BAYn's ENABLE (R287). -/
def bayEnable (n : Nat) (on : Bool) (s : State) : State × Code :=
  let b := Pg.bay n
  let after := s.bayCount - b2n (bitAt (s.fld ARCC.BAYS_AVAILABLE) n)
  if on = false ∧ s.fld (PG_CTRL_ENABLE b) = 1 ∧ s.startLimit * (after : Rat) / 16 < s.runningPixels then (s, .busy)
  else (settle (showBay n (s.setFld (PG_CTRL_ENABLE b) (b2n on))), .ok)

/-- A write of MZEn's ENABLE (R479). -/
def mzeEnable (n : Nat) (on : Bool) (s : State) : State × Code :=
  let b := Pg.mze n
  let after := s.engineCount - b2n (s.fld (MZE.STAT_STATE n) ≤ 1)
  if on = false ∧ s.fld (PG_CTRL_ENABLE b) = 1 ∧ s.mzCapacity after = false then (s, .busy)
  else (settle (showMze n (s.setFld (PG_CTRL_ENABLE b) (b2n on))), .ok)

/-- A write of LANEn's ENABLE (R479). -/
def lanePower (n : Nat) (on : Bool) (s : State) : State × Code :=
  let b := Pg.lane n
  if on = decide (s.fld (PG_CTRL_ENABLE b) = 1) then (s, .ok)
  else if s.portBound n then (s, .busy)
  else (laneEnable n on (s.setFld (PG_CTRL_ENABLE b) (b2n on)), .ok)

/-- A write of PG_CTRL without SOFT_RESET. -/
def enableWrite (p : PageInfo) (n : Nat) (on : Bool) (s : State) : State × Code :=
  match p.kind with
  | .bay => bayEnable n on s
  | .mze => mzeEnable n on s
  | .lane => lanePower n on s
  | .tdm => tdmEnable n on s
  | _ => (s.setFld (PG_CTRL_ENABLE (p.base n)) (b2n on), .ok)

/-- A write of PG_CTRL. -/
def pgCtrlWrite (p : PageInfo) (n : Nat) (data : Reg) (s : State) : State × Code :=
  if bitsOf data 1 1 = 1 then softReset p n s
  else thenDo (enableWrite p n (decide (bitsOf data 0 1 = 1)) s) (fun t => t.setFld (PG_CTRL_USER (p.base n)) (bitsOf data 3 1))

/-! ### Events (R109 to R111, R478) -/

/-- A W1C write of PG_EVENT (R111): the named bits clear but those whose event recurs in the cycle. -/
def eventClear (b bits recurs : Nat) (s : State) : State :=
  let e := s.fld (PG_EVENT_EVENTS b)
  s.setFld (PG_EVENT_EVENTS b) ((List.range 16).foldl (fun a k =>
    if (bitAt e k && !bitAt bits k) || (bitAt e k && bitAt recurs k) then a + 2 ^ k else a) 0)

/-- Whether event `k` of a page can be masked and reclassed (R110, R478): it is defined and its reset class is not 6 or 7. -/
def PageInfo.settable (p : PageInfo) (k : Nat) : Bool := decide (nth p.events k 7 < 6)

/-- A write of PG_EVMASK. -/
def maskWrite (p : PageInfo) (b : Nat) (data : Reg) (s : State) : State :=
  (List.range 16).foldl (fun t k => if p.settable k then t.setFld ⟨b + 0x28, k, 1⟩ (bitsOf data k 1) else t) s

/-- A write of PG_EVCLASS. -/
def classWrite (p : PageInfo) (b : Nat) (data : Reg) (s : State) : State :=
  (List.range 16).foldl (fun t k => if p.settable k then t.setFld ⟨b + 0x30, 3 * k, 3⟩ (bitsOf data (3 * k) 3) else t) s

/-- A write of a header register (R109 to R116); PG_IDENT, PG_CAPS and PG_STAT are read-only. -/
def headerWrite (p : PageInfo) (n off : Nat) (data : Reg) (s : State) : State × Code :=
  let b := p.base n
  if off = 0x10 then pgCtrlWrite p n data s
  else if off = 0x20 then (eventClear b (bitsOf data 0 16) 0 s, .ok)
  else if off = 0x28 then (maskWrite p b data s, .ok)
  else if off = 0x30 then (classWrite p b data s, .ok)
  else if off = 0x38 then
    shadowWrite p n (decide (bitsOf data 3 1 = 1)) (decide (bitsOf data 1 1 = 1)) (decide (bitsOf data 2 1 = 1)) false s
  else (s, .decodeError)

/-! ### Ring registers (R117, R122, R123, R125) -/

/-- Whether a value may be an entry count. -/
def entriesValid (v : Nat) : Bool := v = 0 || (List.range 13).any (fun k => v = 16 * 2 ^ k)

/-- The registers of command ring `r` and of reply ring `r`, by offset within the ring's block. -/
def ringFld (reply : Bool) (r off w : Nat) : Fld := ⟨0x4100 + (if reply then 0x200 else 0) + 0x20 * r + off, 0, w⟩
def ringEntries (reply : Bool) (r : Nat) : Fld := ringFld reply r 8 17
def ringPi (reply : Bool) (r : Nat) : Fld := ringFld reply r 0x10 16
def ringCi (reply : Bool) (r : Nat) : Fld := ringFld reply r 0x18 16

/-- HIF.HB_CFG.PERIOD_US as TIME_CLK cycles. -/
def State.hbPeriod (s : State) : Nat := usCyc (s.fld HIF.HB_CFG_PERIOD_US)

/-- A ring enabled or disabled (R117, R122, R125): a disabled ring's PI and CI read 0; a reply ring begins its first pass, and ring 0 its
first heartbeat period. -/
def ringSwitch (reply : Bool) (r v : Nat) (s : State) : State :=
  let was := s.fld (ringEntries reply r)
  let t := s.setFld (ringEntries reply r) v
  let t := if v = 0 then (t.setFld (ringPi reply r) 0).setFld (ringCi reply r) 0 else t
  if reply ∧ (was = 0) ≠ (v = 0) then
    { t with hif := { t.hif with
        phase := (List.range 16).map (fun k => if k = r then 1 else nth t.hif.phase k 1)
        hbNext := if r = 0 then (if v = 0 then none else some (t.cyc + t.hbPeriod)) else t.hif.hbNext } }
  else t

/-- A write of a ring register; CQn_CI and RQn_PI are read-only. -/
def ringWriteReg (off : Nat) (data : Reg) (s : State) : State × Code :=
  let reply := decide (0x300 ≤ off)
  let r := (if reply then off - 0x300 else off - 0x100) / 0x20
  let n := s.fld (ringEntries reply r)
  let v := bitsOf data 0 17
  if off % 0x20 = 0 then (if n ≠ 0 then (s, .busy) else (s.setFld (ringFld reply r 0 48) data.toNat, .ok))
  else if off % 0x20 = 8 then
    if entriesValid v = false then (s, .decodeError)
    else if n ≠ 0 ∧ v ≠ 0 ∧ v ≠ n then (s, .busy)
    else (ringSwitch reply r v s, .ok)
  else
    let x := bitsOf data 0 16
    if n ≤ x then (s, .decodeError)
    else (s.setFld (ringFld reply r (off % 0x20) 16) x, .ok)

/-! ### Registers with a rule of their own, page by page -/

/-- KPR: RESET, of which KIND 0 and 3 are reserved (R7), THAW (R152, R469); the rest as its fields say. -/
def kprWrite (off : Nat) (data : Reg) (plain : RegOp) (s : State) : State × Code :=
  if off = 0x40 then
    if bitsOf data 2 1 = 1 then resetRequest (bitsOf data 16 16) (bitsOf data 0 2) s
    else if bitsOf data 0 2 = 0 ∨ bitsOf data 0 2 = 3 then (s, .decodeError)
    else (s, .ok)
  else if off = 0x120 then (if bitsOf data 9 1 = 1 then thaw (bitsOf data 0 5) (decide (bitsOf data 8 1 = 1)) s else (s, .ok))
  else plain s

/-- BOOT: IMG_LEN, GO, STAGE_DATA (R67 to R70). -/
def bootWrite (path : Path) (off : Nat) (data : Reg) (plain : RegOp) (s : State) : State × Code :=
  if off = 0x40 then (if (plain s).2 = .ok ∧ s.ready = .verify then (s, .busy) else plain s)
  else if off = 0x48 then (if bitsOf data 0 1 = 1 then bootGo s else (s, .ok))
  else if off = 0x60 then stageData path data s
  else plain s

/-- SEC: FUSE_CTRL, ATT_CTRL (R82 to R87). -/
def secWrite (off : Nat) (data : Reg) (plain : RegOp) (s : State) : State × Code :=
  if off = 0xD0 then fuseCtrl (decide (bitsOf data 16 1 = 1)) (decide (bitsOf data 17 1 = 1)) (bitsOf data 0 16) s
  else if off = 0xE0 then (if bitsOf data 0 1 = 1 then attGo s else (s, .ok))
  else plain s

/-- FAB: the control cores write the masks and the levels (R133, R139); nobody else writes anything. -/
def fabWrite (path : Path) (off : Nat) (r : RegDesc) (data : Reg) (s : State) : State × Code :=
  let mask := decide (0x100 ≤ off ∧ off < 0x8C0 ∧ off % 0x40 < 0x38)
  let level := decide (0x8C0 ≤ off)
  if path ≠ .core ∨ (mask = false ∧ level = false) then (s, .decodeError)
  else if level ∧ bitsOf data 0 2 = 3 then (s, .decodeError)
  else
    let v := r.fields.foldl (fun v f => withBits v f.lo f.w (bitsOf data f.lo f.w)) (0 : Reg)
    (s.setReg (0x5000 + off) (if mask ∧ off % 0x40 = 0x20 then withBits v 10 38 0 else v), .ok)

/-- PMC: CTRL, the counters and their selections (R448 to R452). -/
def pmcWrite (off k : Nat) (data : Reg) (plain : RegOp) (s : State) : State × Code :=
  let c := 64 * s.fld PMC.WIN_GROUP + k
  if off = 0x48 then ((if bitsOf data 0 1 = 1 then clearCounters s else s), .ok)
  else if 0x200 ≤ off ∧ off < 0x400 then cntWrite c data s
  else if 0x400 ≤ off then evselWrite c data s
  else plain s

/-- CHK: UCTL, DATA and SCAN_CTRL (R381 to R387). How far a scan was when ABORT comes by a plain register write is a free value. -/
def chkWrite (off k : Nat) (data : Reg) (plain : RegOp) (s : State) : State × Code :=
  if off < 0x80 then uctlWrite k data s
  else if off < 0xC0 then crcData k data s
  else if off = 0x190 then
    if bitsOf data 8 1 = 1 then scanGo (bitsOf data 4 3) s
    else if bitsOf data 9 1 = 1 then
      let (w, t) := s.freeWord
      let len := match s.scan with
        | some r => r.len
        | none => 1
      scanAbort (w.toNat % max 1 len) false t
    else plain s
  else plain s

/-- A write of LANEn.TXEQm (R194). -/
def txeqWrite (data : Reg) (plain : RegOp) (s : State) : State × Code :=
  if tapsValid data then plain s else (s, .decodeError)

/-- A write of LANEn.TEST (R201). -/
def testWrite (n : Nat) (data : Reg) (s : State) : State × Code :=
  let speed := s.fld (LANE.CFG_SPEED n)
  let v := withBits 0 0 8 (bitsOf data 0 8)
  let gen := bitsOf v (LANE.TEST_GEN n).lo 4
  let check := bitsOf v (LANE.TEST_CHECK n).lo 4
  if patternFits speed gen = false ∨ patternFits speed check = false then (s, .decodeError)
  else if gen ≠ 0 ∧ s.portBound n then (s, .busy)
  else (laneTestSet n v s, .ok)

/-- LANE: TXEQ and TEST. -/
def laneWrite (n off : Nat) (data : Reg) (plain : RegOp) (s : State) : State × Code :=
  if 0x48 ≤ off ∧ off < 0x68 then txeqWrite data plain s
  else if off = 0x90 then testWrite n data s
  else plain s

/-- A write of PTP.CFG (R166): the groups that PTP joins by it are reported (R204). -/
def ptpCfgWrite (data : Reg) (s : State) : State × Code :=
  thenDo (plainWrite 0x200040 data s) (fun t => (List.range 4).foldl (reportJoins s) (ptpCfgSet (s.reg 0x200040) t))

/-- A write of PTP.MODE (R168). -/
def ptpModeWrite (mode : Nat) (s : State) : State × Code := if mode ≤ 2 then (ptpModeSet mode s, .ok) else (s, .decodeError)

/-- A write of PTP.INCR (R159, R168). -/
def ptpIncrWrite (incr : Nat) (s : State) : State × Code :=
  if s.fld PTP.MODE_MODE ≠ 0 then (s, .busy)
  else if incr < 10732049531 ∨ 10742786949 < incr then (s, .decodeError)
  else (ptpIncrSet incr s, .ok)

/-- PTP: CFG, MODE, INCR, STEP_CTRL. -/
def ptpWrite (off : Nat) (data : Reg) (plain : RegOp) (s : State) : State × Code :=
  if off = 0x40 then ptpCfgWrite data s
  else if off = 0x48 then ptpModeWrite (bitsOf data 0 2) s
  else if off = 0x50 then ptpIncrWrite (bitsOf data 0 40) s
  else if off = 0x80 then stepCtrlWrite (decide (bitsOf data 32 1 = 1)) (decide (bitsOf data 31 1 = 1)) (bitsOf data 0 30) s
  else plain s

/-- A write of CHINn.CTRL (R228): RUN to its shadow copy, REACQUIRE at once. -/
def chinCtrlWrite (n : Nat) (data : Reg) (plain : RegOp) (s : State) : State × Code :=
  thenDo (plain s) (fun t => if bitsOf data 2 1 = 1 then reacquire n t else t)

/-- A write of CHINn.CTRL that sets REACQUIRE and leaves RUN's shadow copy as it is (R113, R228). -/
def reacquireWrite (n : Nat) (s : State) : State × Code :=
  if s.fld (PG_SHADOW_BUSY (Pg.chin n)) = 1 then (s, .busy) else (reacquire n s, .ok)

/-- A write of SPAN_REQ with GO set (R19): TARGET and QUIET_CTU are stored when the request is accepted. -/
def spanGo (target : Nat) (quietCtu : Bool) (s : State) : State × Code :=
  if 2 < target then (s, .decodeError)
  else thenDo (spanRequest target quietCtu s)
    (fun t => (t.setFld DSP.SPAN_REQ_TARGET target).setFld DSP.SPAN_REQ_QUIET_CTU (b2n quietCtu))

/-- DSP: SPAN_REQ (R19, R24) and the pools (R308). -/
def dspWrite (off k : Nat) (data : Reg) (plain : RegOp) (s : State) : State × Code :=
  if off = 0x40 then
    (if bitsOf data 3 1 = 1 then spanGo (bitsOf data 0 2) (decide (bitsOf data 2 1 = 1)) s else plain s)
  else if 0x100 ≤ off ∧ off < 0x140 then
    let rate := bitsOf data 0 25
    let en := bitsOf data 32 1
    if en = 1 ∧ rate = 0 then (s, .decodeError)
    else if s.members k ≠ [] ∧ (en = 0 ∨ rate < s.floorSum k) then (s, .busy)
    else plain s
  else plain s

/-- STC: MZMAP_CTRL (R342). -/
def stcWrite (n off : Nat) (data : Reg) (plain : RegOp) (s : State) : State × Code :=
  if off = 0x408 then (if bitsOf data 0 1 = 1 then mzmapLoad n (bitsOf data 8 4) s else (s, .ok)) else plain s

/-- ASM: the descriptors of a running output are not written (R366). A reserved value is refused first, with DECODE_ERROR: the spec gives no order
(DEDUCED, log entry 13). -/
def asmWrite (off : Nat) (plain : RegOp) (s : State) : State × Code :=
  let r := plain s
  if r.2 ≠ .decodeError ∧ 0x48 ≤ off ∧ off < 0x68 ∧ s.outRuns (s.fld ASM.OD_SEL_OUTPUT) then (s, .busy) else r

/-- A write of GATEn.CTRL.ABORT_PENDING (R403): `atStart` says that the pending list starts in the cycle of the write. -/
def abortPending (n : Nat) (atStart : Bool) (s : State) : State × Code :=
  match (s.port n).next with
  | none => (s, .ok)
  | some g =>
    if atStart ∧ g.start ≤ s.ctr then (startGate n g s, .stale)
    else (showStart n (s.port n).lastStart ((s.setPort n { s.port n with next := none }).setFld (GATE.STAT_PENDING n) 0), .ok)

/-- ENT_IDX.INDEX counts on, wrapping from 511 to 0. -/
def nextEntry (n : Nat) (s : State) : State := s.setFld (GATE.ENT_IDX_INDEX n) ((s.fld (GATE.ENT_IDX_INDEX n) + 1) % 512)

/-- GATE: ENT_DATA, which writes the admin list (R402), and CTRL. -/
def gateWrite (n off : Nat) (data : Reg) (plain : RegOp) (s : State) : State × Code :=
  if off = 0x68 then (if s.fld (PG_SHADOW_BUSY (Pg.gate n)) = 1 then (s, .busy) else thenDo (plain s) (nextEntry n))
  else if off = 0x70 then (if bitsOf data 0 1 = 1 then abortPending n false s else (s, .ok))
  else plain s

/-! ### Egress configuration (R388, R396, R399, R411) -/

/-- SHPn.CFG.TOKENS_ON_CHANGE reads FULL. -/
def State.tokensFull (s : State) (n : Nat) : Bool := s.fld (SHP.CFG_TOKENS_ON_CHANGE n) = 0

/-- QUE: CFG and SHAPE of the selected queue (R388, R399, R411); a system queue stays bound to its service. -/
def queWrite (n off : Nat) (plain : RegOp) (s : State) : State × Code :=
  let q := 1024 * n + s.fld (QUE.SEL_INDEX n)
  if off = 0x48 then
    if (plain s).2 = .decodeError then plain s
    else if s.queueUsed q then (s, .busy)
    else provided s.allHold .busy s (thenDo (plain s) (fun t =>
      if q < 8188 then t else (t.setFld (QUE.CFG_EN n (q % 1024)) 1).setFld (QUE.CFG_SERVICE n (q % 1024)) (q - 8188 + 124)))
  else if off = 0x50 then
    thenDo (provided s.allHold .busy s (plain s)) (fun t =>
      retoken (t.tokensFull (t.serviceOf q / 32)) [queueBucket q 0, queueBucket q 1] t)
  else plain s

/-- SHP: the shapers of classes and services, and the services' configuration and addresses (R388, R399, R411); the bits that bind a system
service to its port stay. A reserved value is refused before BUSY (DEDUCED, log entry 13). -/
def shpWrite (n off k : Nat) (plain : RegOp) (s : State) : State × Code :=
  let v := 32 * n + k
  let full := s.tokensFull n
  if 0x48 ≤ off ∧ off < 0x88 then
    thenDo (provided s.allHold .busy s (plain s)) (retoken full [classBucket n k])
  else if off < 0x100 then plain s
  else if off % 0x40 = 8 then
    thenDo (provided s.allHold .busy s (plain s)) (retoken full [svcBucket v 0, svcBucket v 1])
  else if (plain s).2 = .decodeError then plain s
  else if s.serviceUsed v then (s, .busy)
  else if off % 0x40 = 0 ∧ 124 ≤ v then
    let hold := bitsOf (s.reg (0x808000 + 0x1000 * n + off)) 38 10
    provided s.allHold .busy s (thenDo (plain s) (fun t => t.setFld ⟨0x808000 + 0x1000 * n + off, 38, 10⟩ hold))
  else provided s.allHold .busy s (plain s)

/-! ### Audio configuration (R431, R434, R435, R444, R447) -/

/-- TDM: CFG, MASK and TXMAP. -/
def tdmWrite (n off : Nat) (data : Reg) (plain : RegOp) (s : State) : State × Code :=
  let moved : Bool := bitsOf data 8 2 != s.fld (TDM.CFG_CLOCK n) || bitsOf data 4 3 != s.fld (TDM.CFG_SLOTS n)
    || bitsOf data 0 1 != s.fld (TDM.CFG_DELAY n)
  if off = 0x40 then
    if (plain s).2 ≠ .ok then plain s
    else if moved ∧ s.fld (PG_CTRL_ENABLE (Pg.tdm n)) = 1 then (s, .busy)
    else if s.fld AUDC.CFG_RATE = 1 ∧ bitsOf data 4 3 = 4 then (s, .decodeError)
    else provided State.delaysHold .decodeError s (plain s)
  else provided State.delaysHold .decodeError s (plain s)

/-- Whether F_a is fixed (R447): a TDM port is enabled, a send flow runs, an audio flow context is enabled, or an output carries audio. -/
def State.rateFixed (s : State) : Bool :=
  (List.range 4).any (fun n => s.fld (PG_CTRL_ENABLE (Pg.tdm n)) = 1)
    || (List.range 32).any (fun f => s.fld (AUDC.TX_CFG_RUN f) = 1)
    || (List.range 64).any (fun f => s.fld (FLOW.CFG_KIND f) = 2 && (s.legOn f .a || s.legOn f .b))
    || s.running.any (fun o => decide (o < 136) && s.fld (ASM.OD2_AUD_PID o) != 0)

/-- AUDC: CFG and TS_CFG. A reserved value is refused before BUSY (DEDUCED, log entry 13). -/
def audcWrite (off : Nat) (plain : RegOp) (s : State) : State × Code :=
  if (plain s).2 = .decodeError then plain s
  else if off = 0x40 ∧ s.rateFixed then (s, .busy)
  else if off = 0xA8 ∧ s.outRuns (s.fld AUDC.TS_SEL_OUTPUT) then (s, .busy)
  else plain s

/-! ### The write of a register -/

/-- What a write of the register at `addr` with `data` does once it reaches its page. -/
def regWrite (path : Path) (addr : Nat) (data : Reg) (s : State) : State × Code :=
  match registerAt addr with
  | none => (s, .decodeError)
  | some (p, n, r, k) =>
    let off := addr % 0x1000
    let plain : RegOp := fun t => writeFields (p.base n) r (t.keyAt addr r n) data t
    if off < 0x40 then headerWrite p n off data s
    else if p.kind ≠ .fab ∧ r.fields.all (fun f => f.acc = .ro) then (s, .decodeError)
    else match p.kind with
      | .kpr => kprWrite off data plain s
      | .boot => bootWrite path off data plain s
      | .sec => secWrite off data plain s
      | .hif => if 0x100 ≤ off ∧ r.fields.any (fun f => f.acc = .rw) then ringWriteReg off data s else plain s
      | .fab => fabWrite path off r data s
      | .pmc => pmcWrite off k data plain s
      | .chk => chkWrite off k data plain s
      | .lane => laneWrite n off data plain s
      | .ptp => ptpWrite off data plain s
      | .chin => if off = 0x48 then chinCtrlWrite n data plain s else plain s
      | .paf => if off < 0x80 ∧ off % 0x18 = 0x10 ∧ 0x58 ≤ off then (if bitsOf data 0 1 = 1 then lutLoad n k s else (s, .ok)) else plain s
      | .dsp => dspWrite off k data plain s
      | .stc => stcWrite n off data plain s
      | .asm => asmWrite off plain s
      | .gate => gateWrite n off data plain s
      | .shp => shpWrite n off k plain s
      | .que => queWrite n off plain s
      | .tdm => tdmWrite n off data plain s
      | .audc => audcWrite off plain s
      | _ => plain s

/-- A BAR0 write of the wrong size, alignment or byte enables (R57, R99, R101, R102). It breaks R130: off KPR the default target answers it,
which ends the check before the masks (R137, R140). -/
def badSizeWrite (addr : Nat) (s : State) : State × Code :=
  let b := baseOf addr
  let refused (t : State) : State × Code := (noteCode (addr / 8 * 8) .decodeError t, .decodeError)
  if s.reaches .pcie = false then (s, .notReady)
  else if b = Pg.kpr then refused s
  else if s.frozen 28 then (s, .frozen)
  else if s.answers b = false ∧ s.inService = false then (s, .notReady)
  else if s.inService ∧ s.inReset 28 then (noteCode (addr / 8 * 8) .stale (countError 28 s), .stale)
  else refused (if s.inService then dfltHit 28 (0x900000000 + addr) s else s)

/-- A control core's register access of the wrong size or alignment breaks R130: the default target answers it (R137). -/
def badSizeCore (addr : Nat) (s : State) : State × Code :=
  if s.reaches .core = false then (s, .notReady)
  else if s.inReset 29 then (countError 29 s, .stale)
  else (dfltHit 29 (0x900000000 + addr) s, .decodeError)

/-- A write of any register over a path. -/
def State.writeAt (s : State) (path : Path) (addr : Nat) (data : Reg) : State × Code :=
  hostWrite path addr data (registerAt addr).isSome (measuredAt addr) (regWrite path addr data) s

/-- A write of any register that the Concourse carries and whose target has not responded within 2 µs (R134, R138). A write of KPR, and
one that never enters the Concourse, is as ever. -/
def State.writeLate (s : State) (path : Path) (addr : Nat) (data : Reg) : State × Code :=
  if path = .uasyn ∨ s.inService = false ∨ baseOf addr = Pg.kpr then s.writeAt path addr data
  else hostWrite path addr data (registerAt addr).isSome false
    (lateWrite (applied addr data (measuredAt addr) (regWrite path addr data))) s

/-! ### The commands -/

/-- REGISTER_WRITE (R99, R100, R130): over BAR0 and from the control cores it must be 8 bytes, aligned; over BAR0 with byte enables 0 to 5
set. `late`: the target has not responded within 2 µs, which FAB_TIMEOUT records (R135, R138). -/
def execRegisterWrite (path : Path) (addr : BitVec 24) (data : BitVec 64) (size : Nat) (be : BitVec 8) (s : State) (late : Bool := false) : Out :=
  let whole : Bool := decide (size = 8 ∧ addr.toNat % 8 = 0)
  let v : Reg := BitVec.ofNat 48 data.toNat
  finishWrite path s
    (if path = .pcie ∧ (whole && decide (be.toNat % 64 = 63)) = false then badSizeWrite addr.toNat s
     else if path = .core ∧ whole = false then badSizeCore addr.toNat s
     else if late then s.writeLate path addr.toNat v
     else s.writeAt path addr.toNat v)

/-- SOFT_RESET (R112). -/
def execSoftReset (path : Path) (page : Fin 202) (s : State) : Out :=
  match pageByIndex page.val with
  | none => finish s s
  | some (p, n) => finishWrite path s (hostWrite path (p.base n + 0x10) 2 true (measuredAt (p.base n + 0x10)) (softReset p n) s)

/-- EVENT_CLEAR (R111). -/
def execEventClear (path : Path) (page : Fin 202) (bits recurs : BitVec 16) (s : State) : Out :=
  let b := baseOfIndex page.val
  finishWrite path s (hostWrite path (b + 0x20) (BitVec.ofNat 48 bits.toNat) true false
    (fun t => (eventClear b bits.toNat recurs.toNat t, .ok)) s)

/-- THAW (R152). -/
def execThaw (path : Path) (master : Fin 32) (reset : Bool) (s : State) : Out :=
  finishWrite path s (hostWrite path 0x1120 (BitVec.ofNat 48 (512 + 256 * b2n reset + master.val)) true false (thaw master.val reset) s)

/-- WARM_RESET (R469, R470). -/
def execWarmReset (path : Path) (confirm : BitVec 16) (s : State) : Out :=
  finishWrite path s (hostWrite path 0x1040 (BitVec.ofNat 48 (65536 * confirm.toNat + 5)) true false (resetRequest confirm.toNat 1) s)

/-- COLD_RESET (R469, R471). -/
def execColdReset (path : Path) (confirm : BitVec 16) (s : State) : Out :=
  finishWrite path s (hostWrite path 0x1040 (BitVec.ofNat 48 (65536 * confirm.toNat + 6)) true false (resetRequest confirm.toNat 2) s)

/-- PTP_MODE_WRITE (R168). -/
def execPtpModeWrite (path : Path) (mode : BitVec 2) (s : State) : Out :=
  finishWrite path s (hostWrite path 0x200048 (BitVec.ofNat 48 mode.toNat) true true (ptpModeWrite mode.toNat) s)

/-- PTP_CFG_WRITE (R166). -/
def execPtpCfgWrite (path : Path) (data : Reg) (s : State) : Out :=
  finishWrite path s (hostWrite path 0x200040 data true true (ptpCfgWrite data) s)

/-- LANE_TEST_WRITE (R201). -/
def execLaneTestWrite (path : Path) (port : Fin 4) (data : Reg) (s : State) : Out :=
  finishWrite path s (hostWrite path (Pg.lane port.val + 0x90) data true true (testWrite port.val data) s)

/-- The data of a PG_CTRL write that gives ENABLE a value and leaves USER. -/
def State.ctrlData (s : State) (b : Nat) (on : Bool) : Reg := BitVec.ofNat 48 (8 * s.fld (PG_CTRL_USER b) + b2n on)

/-- LANE_ENABLE_WRITE (R479). -/
def execLaneEnableWrite (path : Path) (port : Fin 4) (enable : Bool) (s : State) : Out :=
  let b := Pg.lane port.val
  finishWrite path s (hostWrite path (b + 0x10) (s.ctrlData b enable) true true (lanePower port.val enable) s)

/-- BAY_ENABLE_WRITE (R287). -/
def execBayEnableWrite (path : Path) (bay : Fin 16) (enable : Bool) (s : State) : Out :=
  let b := Pg.bay bay.val
  finishWrite path s (hostWrite path (b + 0x10) (s.ctrlData b enable) true true (bayEnable bay.val enable) s)

/-- MZE_ENABLE_WRITE (R479). -/
def execMzeEnableWrite (path : Path) (engine : Fin 8) (enable : Bool) (s : State) : Out :=
  let b := Pg.mze engine.val
  finishWrite path s (hostWrite path (b + 0x10) (s.ctrlData b enable) true true (mzeEnable engine.val enable) s)

/-- TDM_ENABLE_WRITE (R479). -/
def execTdmEnableWrite (path : Path) (port : Fin 4) (enable : Bool) (s : State) : Out :=
  let b := Pg.tdm port.val
  finishWrite path s (hostWrite path (b + 0x10) (s.ctrlData b enable) true true (tdmEnable port.val enable) s)

/-- CHIN_REACQUIRE (R228). -/
def execChinReacquire (path : Path) (slot : Fin 8) (s : State) : Out :=
  let n := slot.val
  finishWrite path s
    (hostWrite path (Pg.chin n + 0x48) (BitVec.ofNat 48 (4 + s.shFld (CHIN.CTRL_RUN n))) true true (reacquireWrite n) s)

/-- LUT_LOAD (R247). -/
def execLutLoad (path : Path) (slot : Fin 8) (table : Fin 2) (s : State) : Out :=
  finishWrite path s (hostWrite path (Pg.paf slot.val + 0x58 + 0x18 * table.val) 1 true false (lutLoad slot.val table.val) s)

/-- SPAN_REQUEST (R19, R20). -/
def execSpanRequest (path : Path) (target : BitVec 2) (quietCtu : Bool) (s : State) : Out :=
  finishWrite path s
    (hostWrite path 0x700040 (BitVec.ofNat 48 (8 + 4 * b2n quietCtu + target.toNat)) true true (spanGo target.toNat quietCtu) s)

/-- MZMAP_LOAD (R342). -/
def execMzmapLoad (path : Path) (slot : Fin 8) (out : Fin 16) (s : State) : Out :=
  finishWrite path s
    (hostWrite path (Pg.stc slot.val + 0x408) (BitVec.ofNat 48 (256 * out.val + 1)) true false (mzmapLoad slot.val out.val) s)

/-- ABORT_PENDING (R403). -/
def execAbortPending (path : Path) (port : Fin 4) (atStart : Bool) (s : State) : Out :=
  finishWrite path s (hostWrite path (Pg.gate port.val + 0x70) 1 true false (abortPending port.val atStart) s)

/-- SHAPE_WRITE (R399): a write of the SHAPE register of a queue, a service or a class; at another address it is that register's write. -/
def execShapeWrite (path : Path) (addr : BitVec 24) (data : Reg) (s : State) : Out :=
  finishWrite path s (s.writeAt path addr.toNat data)

end Sys2Proof.Machine
end

