-- ==== Sys2Proof/Machine/Bar2.lean ====
section
/-!
DEFINITION. Machine/Bar2.lean: BAR2, the staging area before READY and the HBM window from READY on (spec 03 R57, R66 to R69, 04 R95, 05 R138,
R143, 14 R360, 20 R468).
-/
namespace Sys2Proof.Machine

/-- The HBM address behind a BAR2 offset (R95). -/
def State.windowAddr (s : State) (off : Nat) : Nat := s.fld HIF.BAR2_BASE_WINDOW * 2 ^ 28 + off

/-- Bytes of the staging area as BAR2 reads them: beyond 24 MiB zero (R66). -/
def State.stagedBytes (s : State) (off n : Nat) : List Byte :=
  let m := min n (Config.stagingBytes - off)
  Memory.read s.gallery (Config.stagingBase + off) m ++ List.replicate (n - m) 0

/-- A BAR2 read completed with data and the EP bits of its completions. -/
def bulkReply (bytes : List Byte) (ep : List Bool) (s : State) : State := { s with replies := { s.replies with bulk := bytes, ep := ep } }

/-- A read of the HBM window (R95, R134, R360): zero data under a response other than OKAY. A TIMEOUT is counted by FAB_TIMEOUT. While an owed
refresh or a second read goes ahead of it the port stalls, and nothing happens yet (R416, R418). -/
def windowRead (a n : Nat) (resp : Resp) (s : State) : State :=
  let clean := epOf s.mps a n a []
  let zero (t : State) : State := bulkReply (List.replicate n 0) clean t
  if s.inReset 28 ∨ s.permits 28 false (.hbm a) = false then zero (countError 28 s)
  else if resp = .timeout then zero s
  else if resp ≠ .okay then zero (countError 28 s)
  else if s.readable a n = false then s
  else
    let (bytes, bad, t) := s.hbmRead a n
    bulkReply bytes (epOf s.mps a n a bad) t

/-- BAR2_READ (R57, R66, R95). -/
def execBar2Read (offset : BitVec 28) (len : Nat) (resp : Resp) (s : State) : Out :=
  finish s <|
    let off := offset.toNat
    if s.reaches .pcie = false then s
    else if s.inService then windowRead (s.windowAddr off) len resp s
    else if s.pwr.core ∧ (s.ready = .waitImage ∨ s.ready = .verify ∨ s.ready = .quarantine) then
      bulkReply (s.stagedBytes off len) (epOf s.mps off len off []) s
    else bulkReply (List.replicate len 0) (epOf s.mps off len off []) s

/-- The bytes of the beats of a burst that were sent before a drain cut it: how many is a free value (R134, R146). -/
def sentBeats (bytes : List Byte) (s : State) : List Byte × State :=
  let (w, t) := s.freeWord
  (bytes.take (32 * (w.toNat % (ceilDiv bytes.length 32 + 1))), t)

/-- A write of the HBM window (R95, R102, R138, R143): dropped on a frozen port; outside the masks it freezes the port, in the port's reset
once the drain ends (R147). Whether a write that timed out was applied is unknown (R134): a free value; of one that a drain cut, the beats
already sent are applied. At a port in URGENT or with a full write queue it stalls, and nothing happens yet (R418, R421). -/
def windowWrite (a : Nat) (bytes : List Byte) (resp : Resp) (s : State) : State :=
  if s.frozen 28 then s
  else if s.inReset 28 then (if s.permits 28 true (.hbm a) then countError 28 s else violate 28 .hbm true a s)
  else if s.permits 28 true (.hbm a) = false then violate 28 .hbm true a s
  else if s.writable a bytes.length = false then s
  else if resp = .okay then s.hbmWrite a bytes
  else if resp = .timeout then
    let (took, t) := s.freeBool
    if took then t.hbmWrite a bytes else t
  else if resp = .mreset ∨ resp = .frozen then
    let (sent, t) := sentBeats bytes s
    countError 28 (t.hbmWrite a sent)
  else countError 28 s

/-- BAR2_WRITE (R57, R66, R68, R69, R95). -/
def execBar2Write (offset : BitVec 28) (bytes : List Byte) (resp : Resp) (s : State) : Out :=
  finish s <|
    let off := offset.toNat
    if s.reaches .pcie = false then s
    else if s.inService then windowWrite (s.windowAddr off) bytes resp s
    else if s.pwr.core ∧ (off < Config.stagingBytes ∨ s.ready = .init) then (stageWrite 1 off bytes s).1
    else s

end Sys2Proof.Machine
end

