-- ==== Sys2Proof/Machine/Boundary.lean ====
section
/-!
DEFINITION. Machine/Boundary.lean: the instants at which a channel slot's armed pages commit: landings and picture boundaries, with the latch of
its statistics block (spec 04 R114, 08 R216, R232, 09 R248, R249, 10 R254, 11 R293, R295, R309, R311, 13 R343, 19 R455, R456).
-/
namespace Sys2Proof.Machine

/-- Whether the picture of a slot at grid point `k` is complete (R455): every substream's last stripe has been announced and created, and
every running output that codes the picture has formed its seal. -/
def State.picComplete (s : State) (slot k : Nat) (x : PicStats) : Bool :=
  x.begun && (List.range (substreamsOf (s.size slot))).all (fun b => decide (b ∈ x.subsDone))
    && s.held.all (fun a => !(a.slot = slot && a.grid = k))
    && s.running.all (fun o => decide (outSlot o ≠ slot) || !(s.out o).pics.any (fun p => p.grid = k) || decide (o ∈ x.sealed))

/-- The oldest complete picture of a slot that has not been latched. -/
def State.oldestComplete (s : State) (slot : Nat) : Option (Nat × PicStats) :=
  ((s.stats.filter (fun e => e.1 % 8 = slot)).map (fun e => (e.1 / 8, e.2))).find? (fun e => s.picComplete slot e.1 e.2)

/-- A field that a latch writes, saturating at its largest value. -/
def State.showSat (s : State) (f : Fld) (v : Nat) : State := s.setFld f (min v (2 ^ f.w - 1))

/-- The mean QP of a picture's quantization groups with residual, in sixteenths (R455); which way a remainder rounds is not stated: a free value. -/
def meanQp (x : PicStats) (s : State) : Nat × State :=
  let sum := 16 * x.quant.1
  if x.quant.2 = 0 then (0, s)
  else if sum % x.quant.2 = 0 then (sum / x.quant.2, s)
  else
    let (up, t) := s.freeBool
    (sum / x.quant.2 + b2n up, t)

/-- The block of slot `n` shows the picture at grid point `k` (R455, R456). -/
def latchBlock (n k : Nat) (x : PicStats) (s : State) : State :=
  let seq := s.fld (STC.SB0_SEQ n)
  let at' := gridAt (s.rate n) k
  let (qp, s) := meanQp x s
  let s := (s.setFld (STC.SB0_PICTURE n) x.picture).setFld (STC.SB0_SEQ n) ((seq + 1) % 65536)
  let s := (s.setFld (STC.SB1_SEC_LO n) (secOf at' % 2 ^ 18)).setFld (STC.SB1_NS n) (nsOf at')
  let s := (s.showSat (STC.SB2_PIC_BITS n) x.bits).setFld (STC.SB3_MEAN_QP n) qp
  let s := (List.range 8).foldl (fun t i => t.showSat ⟨(STC.SBT_TREAD0 n (i / 3)).key, 16 * (i % 3), 16⟩ (Store.at x.treads 0 i)) s
  let s := (s.showSat (STC.SB7_CONCEALED_LINES n) x.lines).showSat (STC.SB7_REPEATS n) x.repeats
  let s := (s.showSat (STC.SB7_STALLED n) x.stalled).showSat (STC.SB7_PASS_CONCEAL n) x.passConc
  let s := (s.setFld (STC.SB7_FORMAT_LOST n) (b2n x.lost)).showSat (STC.SB8_FLOORED n) x.floored
  let s := (s.showSat (STC.SB8_FLOOR_SYNTHS n) x.synths).showSat (STC.SB8_REDISPATCHES n) x.redisp
  let s := (s.showSat (STC.SB8_RESIDUE n) x.residue).showSat (STC.SB8_SUSPECT n) x.suspect
  let s := (s.setFld (STC.SB8_STALE n) (x.stale % 8 + 8 * b2n (8 ≤ x.stale))).showSat (STC.SB8_TIME_DISC n) x.disc
  let s := (List.range 135).foldl (fun t i =>
    let e := Store.at x.stripes (0, 0) i
    (t.setFld (STC.SBS_TREADS n i) e.1).showSat (STC.SBS_BITS n i) e.2) s
  { s with stats := Store.put s.stats {} (n + 8 * k) {} }

/-- The latch of a boundary (R455). -/
def latchPicture (n : Nat) (s : State) : State :=
  match s.oldestComplete n with
  | some (k, x) => latchBlock n k x s
  | none => s

/-- The commits of slot `n`'s armed pages at their commit point `point`: 1 LANDING, 2 PICTURE (R114). -/
def commitSlot (point n : Nat) (s : State) : State :=
  (List.range 202).foldl (fun t i => match pageByIndex i with
    | none => t
    | some (p, m) => if p.commit = point ∧ m = n ∧ t.fld (PG_SHADOW_BUSY (p.base m)) = 1 then commit p m t else t) s

/-- LANDING (R254, R293 to R303, R310): the CTUs since the last landing are coded, each within its limit, and the bay receives its tread. The
slot's armed LANDING commits and a swap of its rate tables both apply to the decision (R114, R295). A mismatch in the cycle of the landing is
replayed after its hold (R350), so one landing may come while a replay waits. `used` is the bay's own count of cycles, which no decision
reads (R293 measures time by the counter). -/
def execLanding (bay : Fin 16) (used : Nat) (ctus : List CtuCode) (s : State) : Out :=
  finish s <|
    let _ := used
    let n := bay.val
    match s.bayRun n with
    | none => s
    | some r =>
      match s.task r.task with
      | none => s
      | some t =>
        let x := beforeLanding s t r ctus
        if s.inService = false ∨ 8 ≤ r.landings ∨ (r.replay.isSome ∧ r.held) ∨ x.fits = false
            ∨ x.run.ctus ≠ landingCtu (s.outCtus t.out t.ann.ctu32) r.landings then s
        else
          let u := afterCtus n t r x ctus.length s
          let forced := r.forced || x.run.sized
          landing n { x.run with forced := forced } t (swapTables (outSlot t.out) (commitSlot 1 (outSlot t.out) u))

/-- What a boundary of slot `n`, that of the picture at grid point `k`, does: the commits, the latch, the rate tables, the conversion tables,
whose swaps and PAFn's commit both serve the picture (R249), the region maps, and a stop that waited for it. -/
def pictureBoundary (n k : Nat) (s : State) : State :=
  let t := tableBoundary n k (latchPicture n (commitSlot 2 n s))
  let t := noteSet n k (lutBoundary n 1 k (lutBoundary n 0 k t))
  let t := (List.range 16).foldl (fun u i =>
    let w := mapBoundary n i k u
    if u.outRuns (mezzanine n i) then rebindSender (.out (mezzanine n i)) u w else w) t
  if (t.slot n).stopping then stopSlot n t else t.setSlot n { t.slot n with boundary := some (k + 1) }

/-- PICTURE_BOUNDARY (R216): the capture time of the slot's next picture of substream 0 is reached. -/
def execPictureBoundary (slot : Fin 8) (s : State) : Out :=
  finish s <|
    let n := slot.val
    match (s.slot n).boundary with
    | none => s
    | some k => if s.inService ∧ s.slotRuns n ∧ gridAt (s.rate n) k ≤ s.ctr then pictureBoundary n k s else s

end Sys2Proof.Machine
end

