-- ==== Sys2Proof/Machine/Endpoint.lean ====
section
/-!
DEFINITION. Machine/Endpoint.lean: the PCIe endpoint: its configuration space and its link (spec 03 R57, 04 R93 to R98, 07 R192, R193).
No row of the table is a configuration request; PCIE_D3HOT and PCIE_D0_RETURN are the two whose effect the spec gives as events. Where a
field lies in configuration space the PCI Express Base Specification says, and not this spec (log entry 88).
-/
namespace Sys2Proof.Machine

/-- The registers of the endpoint's configuration space whose content R93, R94 and R97 give. -/
inductive CfgReg
  | identity | command | classRevision | bar (n : Fin 6) | subsystem | interruptPin | deviceControl | maxPayload | readRequest
  | slotClock | powerState | noSoftReset | serialLow | serialHigh | capability (id : Fin 256) | extended (id : Fin 65536) | resetOnRequest
deriving DecidableEq, Repr

/-- The three BARs (R94), each of two doublewords: a 64-bit memory BAR of `2 ^ bits` bytes, prefetchable or not, and its base. -/
def PciConfig.barOf (c : PciConfig) (n : Fin 6) : Nat × Bool × BitVec 64 :=
  if n.val < 2 then (24, false, c.bar0) else if n.val < 4 then (28, true, c.bar2) else (20, true, c.bar4)

/-- A BAR's base as assigned: the address bits below its size read zero (R94). -/
def barBase (bits : Nat) (v : BitVec 64) : Nat := v.toNat - v.toNat % 2 ^ bits

/-- What a doubleword of a BAR reads as: the base, and in the lower one the type: memory, 64 bits, prefetchable in bit 3. -/
def PciConfig.barRead (c : PciConfig) (n : Fin 6) : Nat :=
  let (bits, pre, v) := c.barOf n
  if n.val % 2 = 0 then barBase bits v % 2 ^ 32 + (if pre then 12 else 4) else barBase bits v / 2 ^ 32

/-- A BAR's doubleword written: `high` the upper one. -/
def barWrite (high : Bool) (x : BitVec 32) (v : BitVec 64) : BitVec 64 :=
  BitVec.ofNat 64 (if high then v.toNat % 2 ^ 32 + x.toNat * 2 ^ 32 else v.toNat / 2 ^ 32 * 2 ^ 32 + x.toNat)

/-- The capability IDs of R93's list: Power Management 0x01 and PCI Express 0x10. The IDs are the PCI Express Base Specification's (PRESUMED, log
entry 88). Neither MSI (0x05) nor MSI-X (0x11) is among them. -/
def capabilities : List Nat := [0x01, 0x10]

/-- The extended capability IDs of R93's list: AER 0x0001, Device Serial Number 0x0003, Secondary PCI Express 0x0019, Data Link Feature 0x0025,
Physical Layer 16 GT/s 0x0026, Lane Margining at the Receiver 0x0027, Physical Layer 32 GT/s 0x002A (PRESUMED, log entry 88). SR-IOV, ATS,
PASID, Resizable BAR and the L1 PM substates are not among them. -/
def extendedCapabilities : List Nat := [0x0001, 0x0003, 0x0019, 0x0025, 0x0026, 0x0027, 0x002A]

/-- What a register of configuration space holds: the identity of R93, the BARs of R94, Slot Clock Configuration 0 of R97, D0 or D3hot with
No_Soft_Reset 1, the serial number that OTP DEVICE_SERIAL holds, whether a capability is in the list, and no Function Level Reset. -/
def State.cfgValue (s : State) : CfgReg → Nat
  | .identity => 0x81201F5B
  | .command => 2 * b2n s.pci.memory + 4 * b2n s.pci.master
  | .classRevision => 0x04800001
  | .bar n => s.pci.barRead n
  | .subsystem => 0x81201F5B
  | .interruptPin => 0
  | .deviceControl => s.pci.payload * 32 + s.pci.readReq * 4096
  | .maxPayload => 128 * 2 ^ s.pci.payload
  | .readRequest => 128 * 2 ^ s.pci.readReq
  | .slotClock => 0
  | .powerState => if s.hif.d3hot then 3 else 0
  | .noSoftReset => 1
  | .serialLow => (Store.at s.otp 0 0).toNat
  | .serialHigh => (Store.at s.otp 0 1).toNat
  | .capability id => b2n (decide (id.val ∈ capabilities))
  | .extended id => b2n (decide (id.val ∈ extendedCapabilities))
  | .resetOnRequest => 0

/-- How a configuration request is answered (R57): not at all before L0, with Configuration Request Retry Status in COLD, else normally. -/
inductive CfgAnswer
  | unreached
  | retry
  | completed (data : Nat)
deriving DecidableEq, Repr

/-- The answer to a configuration read (R57). -/
def State.cfgRead (s : State) (r : CfgReg) : CfgAnswer :=
  if s.hif.linkUp = false then .unreached else if s.ready = .cold then .retry else .completed (s.cfgValue r)

/-- A code of a payload or read-request size within what the endpoint supports (R93): 512 B, 4,096 B. -/
def sizeCode (most x : Nat) : Nat := min most (x % 8)

/-- What a completed configuration write leaves (R93, R94, R98): memory decoding and bus mastering, the bases of the BARs, the sizes, and
the power state; the other registers are read-only. -/
def cfgStore (r : CfgReg) (x : BitVec 32) (s : State) : State :=
  let n := x.toNat
  match r with
  | .command => { s with pci := { s.pci with memory := bitAt n 1, master := bitAt n 2 } }
  | .bar k =>
    let w := barWrite (k.val % 2 = 1) x
    if k.val < 2 then { s with pci := { s.pci with bar0 := w s.pci.bar0 } }
    else if k.val < 4 then { s with pci := { s.pci with bar2 := w s.pci.bar2 } }
    else { s with pci := { s.pci with bar4 := w s.pci.bar4 } }
  | .deviceControl => { s with pci := { s.pci with payload := sizeCode 2 (n / 32), readReq := sizeCode 5 (n / 4096) } }
  | .powerState =>
    if n % 4 = 3 then { s with hif := { s.hif with d3hot := true } }
    else if n % 4 = 0 then { s with hif := { s.hif with d3hot := false } }
    else s
  | _ => s

/-- A configuration write (R57): one that is not completed has no effect. -/
def cfgWrite (r : CfgReg) (x : BitVec 32) (s : State) : State :=
  match s.cfgRead r with
  | .completed _ => cfgStore r x s
  | _ => s

/-- PCIE_LINK_UP (R192, R193): the link trains from Detect to L0 at 2.5 GT/s, or an established link changes rate or width through Recovery; no
link comes up at another rate. How often it enters Recovery is not stated: a free value. -/
def execPcieLinkUp (rate width : Nat) (s : State) : Out :=
  finish s <|
    if s.pwr.aux ∧ s.pins.perstN ∧ s.hif.lanesOn ∧ 1 ≤ rate ∧ rate ≤ 5
        ∧ (s.hif.linkUp ∨ rate = 1) ∧ (width = 1 ∨ width = 2 ∨ width = 4 ∨ width = 8) then
      let (w, t) := s.freeWord
      let t := if s.hif.linkUp then t else { t with hif := { t.hif with linkUp := true, d3hot := false } }
      let t := (t.setFld PCIE.LINK_LTSSM 3).setFld PCIE.LINK_RATE rate
      let t := (t.setFld PCIE.LINK_WIDTH width).satFld PCIE.LINK_RECOVERIES (w.toNat + b2n s.hif.linkUp)
      setPcieLanes true true t
    else s

/-- PCIE_HOT_RESET (R98): a hot reset or link down returns the configuration space and HIF's ring registers to reset. -/
def execPcieHotReset (s : State) : Out :=
  finish s <| if s.pwr.aux ∧ s.hif.linkUp then pcieLinkLost (pcieReset s) else s

/-- PCIE_D3HOT (R98): the host writes D3hot as the power state; no descriptor is fetched and no reply or heartbeat written. -/
def execPcieD3hot (s : State) : Out := finish s (cfgWrite .powerState 3 s)

/-- PCIE_D0_RETURN (R98): the host writes D0 as the power state; the rings resume where they stopped. -/
def execPcieD0Return (s : State) : Out := finish s (cfgWrite .powerState 0 s)

end Sys2Proof.Machine
end

