-- ==== Sys2Proof/Machine/Reads.lean ====
section
/-!
DEFINITION. Machine/Reads.lean: reads of registers over each path: which are answered, with which CODE, what the read itself does, and the
CODE of an earlier write that it delivers (spec 04 R99 to R102, 05 R138, R141, R150, R151, 06 R161, 15 R379, R382, 20 R463).
-/
namespace Sys2Proof.Machine

/-- What a read of a register answers: the state after, its data and its CODE. -/
abbrev ReadOp := State → State × Reg × Code

/-! ### Reads that do something -/

/-- A read of KPR.TIME_SEC (R161). -/
def timeSecRead (path : Path) (s : State) : State × Reg × Code :=
  ({ s with kpr := { s.kpr with timeSnap := s.kpr.timeSnap.latch path [s.timeNs] } }, BitVec.ofNat 48 (secOf s.ctr), .ok)

/-- A read of PTP.OFFSET_SEC: OFFSET_NS is latched with it. -/
def offsetSecRead (path : Path) (s : State) : State × Reg × Code :=
  ({ s with servo := { s.servo with offsetSnap := s.servo.offsetSnap.latch path [s.reg 0x200098] } }, s.reg 0x200090, .ok)

/-- Word `w` of a fault record (R463). -/
def FaultRec.word (r : FaultRec) (w : Nat) : Reg :=
  if w = 0 then BitVec.ofNat 48 (r.seq * 2 ^ 16 + r.kind * 2 ^ 8 + r.cls * 16 + r.ready)
  else if w = 1 then BitVec.ofNat 48 (r.sec * 2 ^ 30 + r.ns)
  else if w = 2 then r.a else r.b

/-- A read of KPR.FLOG_W0 (R463). -/
def flogRead (path : Path) (s : State) : State × Reg × Code :=
  let sel := s.fld KPR.FLOG_SEL_SEQ
  let latch (v : List Reg) : State := { s with kpr := { s.kpr with flogSnap := s.kpr.flogSnap.latch path v } }
  match s.kpr.flog.find? (fun r => r.seq = sel) with
  | some r => (latch [r.word 1, r.word 2, r.word 3], r.word 0, .ok)
  | none => (latch [0, 0, 0], 0, .stale)

/-- A read of CHK.VALLOu (R382). -/
def valloRead (path : Path) (u : Nat) (s : State) : State × Reg × Code :=
  let r := s.unit u
  (s.setUnit u { r with snap := r.snap.latch path [BitVec.ofNat 48 (r.value / 2 ^ 32), BitVec.ofNat 48 r.bytes] },
    BitVec.ofNat 48 (r.value % 2 ^ 32), .ok)

/-- A read of SEAL.LAST0 latches LAST1 to LAST7 for the path. -/
def lastRead (path : Path) (s : State) : State × Reg × Code :=
  let key (w : Nat) : Nat := winKey (0x801050 + 8 * w) (s.selected .seal 0)
  ({ s with sealSnap := s.sealSnap.latch path ((List.range 7).map (fun i => s.reg (key (i + 1)))) }, s.reg (key 0), .ok)

/-- A read of the register at an address, with what the read itself does. -/
def readReg (path : Path) (addr : Nat) (s : State) : State × Reg × Code :=
  if addr = 0x1128 then timeSecRead path s
  else if addr = 0x1070 then flogRead path s
  else if addr = 0x3048 then otpData s
  else if addr = 0x30D8 then fuseStatRead s
  else if addr = 0x30F8 then attData s
  else if addr = 0x200090 then offsetSecRead path s
  else if 0x7100 ≤ addr ∧ addr < 0x7140 then valloRead path ((addr - 0x7100) / 8) s
  else if addr = 0x801050 then lastRead path s
  else if 0x100000 ≤ addr ∧ addr < 0x104000 ∧ addr % 0x1000 = 0x98 then
    let t := countErrors ((addr - 0x100000) / 0x1000) s
    (t, t.readData path addr, .ok)
  else if baseOf addr / 0x1000 / 4 = 0x201 ∧ addr % 0x1000 = 0x68 then
    let n := (addr - 0x804000) / 0x1000
    (nextEntry n s, s.readData path addr, .ok)
  else (s, s.readData path addr, .ok)

/-! ### The way of a read -/

/-- The CODE that the register at an address keeps for its next read, if any, is delivered by this one in place of OK (R20, R101, R115). -/
def deliverCode (addr : Nat) (r : State × Reg × Code) : State × Reg × Code :=
  let c := Store.at r.1.replies.codes 0 addr
  if r.2.2 = .ok ∧ c ≠ 0 then
    ({ r.1 with replies := { r.1.replies with codes := Store.put r.1.replies.codes 0 addr 0 } }, r.2.1, Code.ofNum c)
  else r

/-- A read over the PCIe port, alone or as an entry of REG_READ_LIST (R57, R100 to R102, R138, R141, R150). A frozen port's reads carry FROZEN,
those of KPR their own CODE (R150 over R102). -/
def pcieRead (addr : Nat) (known : Bool) (run : ReadOp) (s : State) : State × Reg × Code :=
  let b := baseOf addr
  if b = Pg.kpr then (if known then deliverCode addr (run s) else (s, 0, .decodeError))
  else if s.answers b = false ∧ s.inService = false then (s, 0, .notReady)
  else if s.inService ∧ s.inReset 28 then (countError 28 s, 0, .stale)
  else if known = false then (dfltHit 28 (0x900000000 + addr) s, 0, .decodeError)
  else if s.frozen 28 then
    let r := run s
    (r.1, r.2.1, .frozen)
  else deliverCode addr (run s)

/-- A read over the Uasyn link (R57, R141, R151); it delivers the CODE of a failed commit, which any read of PG_SHADOW does (R115), and that
of a refused Span request, which any read of SPAN_STAT does (R20). -/
def uasynPathRead (addr : Nat) (known : Bool) (run : ReadOp) (s : State) : State × Reg × Code :=
  let b := baseOf addr
  if b ≠ Pg.kpr ∧ s.answers b = false ∧ s.inService = false then (s, 0, .notReady)
  else if known = false then (s, 0, .decodeError)
  else if addr % 0x1000 = 0x38 ∨ addr = 0x700048 then deliverCode addr (run s)
  else run s

/-- A read by the control cores (R137, R139, R149): a page outside their masks freezes them, in their reset once its drain ends (R147). -/
def coreRead (addr : Nat) (known : Bool) (run : ReadOp) (s : State) : State × Reg × Code :=
  if s.inService = false ∨ s.frozen 29 then (s, 0, .notReady)
  else if s.inReset 29 then
    (if s.coreOutside false known addr then violate 29 .page false (0x900000000 + addr) s else countError 29 s, 0, .stale)
  else if known = false ∨ baseOf addr = Pg.kpr then (dfltHit 29 (0x900000000 + addr) s, 0, .decodeError)
  else if s.permits 29 false (.page addr) = false then (violate 29 .page false (0x900000000 + addr) s, 0, .permission)
  else run s

/-- A read of the register at `addr` over a path; `known` says that a register lies there. -/
def hostRead (path : Path) (addr : Nat) (known : Bool) (run : ReadOp) (s : State) : State × Reg × Code :=
  match path with
  | .pcie => pcieRead addr known run s
  | .ring => pcieRead addr known run s
  | .uasyn => uasynPathRead addr known run s
  | .core => coreRead addr known run s

/-- The register reply of a state: the RSW with a CODE, formed after the read (R90, R91), and the data. -/
def reply (code : Code) (data : Reg) (t : State) : State := { t with replies := { t.replies with rsw := some (t.rsw code), data := data } }

/-- The end of a read by command. A path that does not reach the module gets no reply; on the Uasyn link the reply is a frame (R106). -/
def finishRead (path : Path) (s : State) (r : State × Reg × Code) : Out :=
  let t := bump s r.1
  if s.reaches path = false then done s (bump s s)
  else match path with
    | .uasyn => done s (answerAccess 1 r.2.2 r.2.1 t)
    | _ => done s (reply r.2.2 r.2.1 t)

/-! ### The commands -/

/-- ATT_DATA_READ (R89). -/
def execAttDataRead (path : Path) (s : State) : Out := finishRead path s (hostRead path 0x30F8 true attData s)

/-- OTP_DATA_READ (R78, R81). -/
def execOtpDataRead (path : Path) (s : State) : Out := finishRead path s (hostRead path 0x3048 true otpData s)

/-- VALLO_READ (R382). -/
def execValloRead (path : Path) (unit : Fin 8) (s : State) : Out :=
  finishRead path s (hostRead path (0x7100 + 8 * unit.val) true (valloRead path unit.val) s)

/-- TIME_SEC_READ (R161). -/
def execTimeSecRead (path : Path) (s : State) : Out := finishRead path s (hostRead path 0x1128 true (timeSecRead path) s)

/-- OFFSET_SEC_READ (R161). -/
def execOffsetSecRead (path : Path) (s : State) : Out := finishRead path s (hostRead path 0x200090 true (offsetSecRead path) s)

/-- FLOG_W0_READ (R463). -/
def execFlogW0Read (path : Path) (s : State) : Out := finishRead path s (hostRead path 0x1070 true (flogRead path) s)

/-- A BAR0 read of a register (R99, R100). -/
def State.bar0Read (s : State) (addr : Nat) : State × Reg × Code := pcieRead addr (registerAt addr).isSome (readReg .pcie addr) s

/-- The reply of a read that carries no RSW. -/
def bareReply (data : Reg) (t : State) : State := { t with replies := { t.replies with rsw := none, data := data } }

/-- The answer of an access whose target has not responded within 2 µs: zero data, CODE BUSY (R138). -/
def lateRead : ReadOp := fun s => (s, 0, .busy)

/-- A BAR0 read of a register, `late` where the Concourse has no response for it in time; KPR and what does not answer lie off the Concourse. -/
def State.bar0ReadLate (s : State) (late : Bool) (addr : Nat) : State × Reg × Code :=
  if late ∧ s.inService ∧ baseOf addr ≠ Pg.kpr then pcieRead addr (registerAt addr).isSome lateRead s else s.bar0Read addr

/-- A BAR0 read that is neither 8 bytes aligned nor half a register: counted in BAD_SIZE (R99). It breaks R130: off KPR the default target answers
it (R137), in the port's reset MRESET (R138). -/
def badSizeRead (addr : Nat) (s : State) : State :=
  let t := if s.pwr.core then s.satFld HIF.PCIE_STAT_BAD_SIZE else s
  if s.inService = false ∨ baseOf addr = Pg.kpr then t
  else if s.inReset 28 then countError 28 t
  else dfltHit 28 (0x900000000 + addr) t

/-- BAR0_BAD_SIZE_READ (R99, R130): a BAR0 read that is neither 8 bytes aligned nor half a register returns zero, as `badSizeRead` has it. A
read of the low 4 bytes carries no RSW and delivers no CODE; the others are answered as R99 says. `late`: the target has not responded
within 2 µs, which FAB_TIMEOUT records (R135, R138). -/
def execBar0BadSizeRead (addr : BitVec 24) (size : Nat) (s : State) (late : Bool := false) : Out :=
  let a := addr.toNat
  if s.reaches .pcie = false then finish s s
  else if size = 8 ∧ a % 8 = 0 then finishRead .pcie s (s.bar0ReadLate late a)
  else if size = 4 ∧ a % 8 = 4 then
    let r := s.bar0ReadLate late (a - 4)
    done s (reply r.2.2 (BitVec.ofNat 48 (r.2.1.toNat / 2 ^ 32)) (bump s r.1))
  else if size = 4 ∧ a % 8 = 0 then
    let r := s.bar0ReadLate late a
    let t := bump s { r.1 with replies := { r.1.replies with codes := s.replies.codes } }
    done s (bareReply (BitVec.ofNat 48 (r.2.1.toNat % 2 ^ 32)) t)
  else done s (bareReply 0 (bump s (badSizeRead a s)))

end Sys2Proof.Machine
end

