-- ==== Sys2Proof/Machine/Receive.lean ====
section
/-!
DEFINITION. Machine/Receive.lean: received frames: the MAC's checks and filters, the responder, and the audio and ancillary flows (spec 07 R204,
R205, 08 R208, R209, R213, R214, R218, R220, 18 R440, R441).
-/
namespace Sys2Proof.Machine

/-! ### Duplicates and gaps of audio and ancillary flows (R218, R220, R233) -/

/-- How far a sequence number of `w` bits lies ahead of the last one, and whether it lies behind it. -/
def seqAhead (w last seq : Nat) : Nat × Bool :=
  let d := (seq + 2 ^ w - last % 2 ^ w) % 2 ^ w
  (d, decide (2 ^ (w - 1) ≤ d))

/-- A gap count after a sequence number: those passed over are missing; one that arrives behind is missing no more. -/
def gapCount (w : Nat) (last : Option Nat) (seq count : Nat) : Nat :=
  match last with
  | none => count
  | some l =>
    let (d, back) := seqAhead w l seq
    if back then count - 1 else count + (d - 1)

/-- The last sequence number after one more. -/
def lastAfter (w : Nat) (last : Option Nat) (seq : Nat) : Option Nat :=
  match last with
  | none => some seq
  | some l => if (seqAhead w l seq).2 then some l else some seq

/-- The gaps of a leg and of the flow. -/
def noteGaps (f w seq : Nat) (leg : Leg) (fresh : Bool) (s : State) : State :=
  let r := s.flow f
  let key := match leg with
    | .a => (FLOW.GAPS_A_V f).key
    | .b => (FLOW.GAPS_B_V f).key
  let last := match leg with
    | .a => r.lastA
    | .b => r.lastB
  let t := s.setAcc key (gapCount w last seq (s.accAt key))
  let both := (FLOW.LOST_BOTH_V f).key
  let t := if fresh then t.setAcc both (gapCount w r.lastSeq seq (t.accAt both)) else t
  t.setFlow f { r with
    lastA := if leg = .a then lastAfter w r.lastA seq else r.lastA
    lastB := if leg = .b then lastAfter w r.lastB seq else r.lastB
    lastSeq := if fresh then lastAfter w r.lastSeq seq else r.lastSeq }

/-- A later copy of a packet: counted, and paired for the skew when it came by the other leg. When leg A's copy comes in the cycle in which leg B's
was kept, A's is kept, which `again` puts in place of B's, and B's is the duplicate (R218). -/
def flowDuplicate (f key : Nat) (leg : Leg) (q : SeqSeen) (again : SeqSeen → State → State) (s : State) : State :=
  let r := s.flow f
  let other : Bool := match leg with
    | .a => q.legB && !q.legA
    | .b => q.legA && !q.legB
  let d : Int := ((s.lane (s.legPort f leg)).rxStamp : Int) - (q.at0 : Int)
  let r := if other then { r with pairs := r.pairs + 1, skewSum := r.skewSum + (if leg = .b then d else -d) } else r
  let q' : SeqSeen := match leg with
    | .a => { q with legA := true }
    | .b => { q with legB := true }
  let t := (s.setFlow f { r with seen := Store.put r.seen {} key q' }).addAcc (FLOW.DUPLICATES_V f).key
  if leg = .a ∧ other ∧ q.keptAt = s.cyc then
    let t := t.setAcc (FLOW.PKTS_B_V f).key (t.accAt (FLOW.PKTS_B_V f).key - 1)
    again q (t.addAcc (FLOW.PKTS_A_V f).key)
  else t

/-- A packet of an audio or ancillary flow, numbered by `seq` of `w` bits: the first copy is kept and used, a later one is a duplicate. -/
def onceOnly (f w rtp seq : Nat) (leg : Leg) (use : State → State) (again : SeqSeen → State → State) (s : State) : State :=
  let key := rtp * 2 ^ w + seq
  let q := Store.at (s.flow f).seen {} key
  let t := noteGaps f w seq leg (!q.kept) s
  if q.kept then flowDuplicate f key leg q again t
  else
    let r := t.flow f
    let q' : SeqSeen :=
      { legA := decide (leg = .a), legB := decide (leg = .b), at0 := (t.lane (t.legPort f leg)).rxStamp, kept := true, keptAt := s.cyc }
    let t := t.setFlow f { r with seen := Store.put r.seen {} key q' }
    let t := match leg with
      | .a => t.addAcc (FLOW.PKTS_A_V f).key
      | .b => t.addAcc (FLOW.PKTS_B_V f).key
    use (t.count 3 1 f)

/-- A packet discarded as MISFIT. -/
def misfit (f : Nat) (n : Nat) (s : State) : State := if n = 0 then s else s.addAcc (FLOW.MISFIT_V f).key n

/-! ### Audio (R213, R440, R441) -/

/-- The sample index nearest now that an RTP timestamp names, under R216 step 1 with the clock F_a. -/
def nearestIndex (hz now rtp : Nat) : Nat :=
  let c := sampleIndex hz now
  let below := c - (c + 2 ^ 32 - rtp % 2 ^ 32) % 2 ^ 32
  let above := below + 2 ^ 32
  if (now : Int) - sampleInstant hz (below + 1) ≤ (sampleInstant hz above : Int) - now then below else above

/-- The samples of an audio payload: `n` sample frames of `chans` channels, each of `w` bytes, L16 extended with zeros below (R441). -/
def payloadSamples (w : Nat) (payload : List Byte) : Nat → List Nat
  | 0 => []
  | n + 1 => (beNat (payload.take w) * (if w = 2 then 256 else 1)) :: payloadSamples w (payload.drop w) n

/-- The samples of a kept packet reach the channel rings. -/
def useAudio (f chans w rtp : Nat) (payload : List Byte) (s : State) : State :=
  let n0 := nearestIndex s.audioHz s.ctr rtp
  ((payloadSamples w payload (payload.length / w)).zipIdx).foldl (fun t e => deliver 3 f (e.2 % chans) (n0 + e.2 / chans) e.1 t) s

/-- An audio packet of a flow (R209, R213, R441). -/
def audioPacket (f : Nat) (leg : Leg) (pt rtp seq : Nat) (payload : List Byte) (s : State) : State :=
  let chans := s.fld (AUDC.RX_FMT_CHANNELS f)
  let w := if s.fld (AUDC.RX_FMT_L24 f) = 1 then 3 else 2
  let want := s.fld (FLOW.CFG_PT f)
  if (want ≠ 0 ∧ want ≠ pt) ∨ payload.length % (chans * w) ≠ 0 then misfit f 1 s
  else onceOnly f 16 rtp seq leg (useAudio f chans w rtp payload) (fun _ => useAudio f chans w rtp payload) s

/-! ### Ancillary data (R214) -/

/-- ANC data packets attached to the picture under `key` while they fit in 16 KiB; the excess is discarded and counted. -/
def keepAnc (f key : Nat) (packets : List (List Byte)) (s : State) : State :=
  packets.foldl (fun t b =>
    let l := Store.at t.anc [] key
    if (l.flatten ++ b).length ≤ 16384 then { t with anc := Store.put t.anc [] key (l ++ [b]) } else misfit f 1 t) s

/-- The ANC data packets of an ancillary packet kept, and where they stand noted with the copy. -/
def useAnc (f key copy : Nat) (packets : List (List Byte)) (s : State) : State :=
  let n := (Store.at s.anc [] key).length
  let t := keepAnc f key packets s
  let r := t.flow f
  t.setFlow f { r with seen := Store.put r.seen {} copy { Store.at r.seen {} copy with from0 := n, many := (Store.at t.anc [] key).length - n } }

/-- The ANC data packets of leg A's copy in place of leg B's (R218). -/
def replaceAnc (f key : Nat) (packets : List (List Byte)) (q : SeqSeen) (s : State) : State :=
  let l := Store.at s.anc [] key
  let rest := l.drop (q.from0 + q.many)
  let t := keepAnc f key packets { s with anc := Store.put s.anc [] key (l.take q.from0) }
  keepAnc f key rest t

/-- An ancillary packet of a flow: its slot must run. -/
def ancPacket (f : Nat) (leg : Leg) (pt rtp seq : Nat) (packets : List (List Byte)) (s : State) : State :=
  let slot := s.fld (FLOW.CFG_SLOT f)
  let want := s.fld (FLOW.CFG_PT f)
  if s.slotRuns slot = false then filtered (s.legPort f leg) s
  else if want ≠ 0 ∧ want ≠ pt then misfit f 1 s
  else
    let key := ancKey slot (s.fld (FLOW.CFG_SUBSTREAM f)) (pictureOf s slot rtp).1
    onceOnly f 32 rtp seq leg (useAnc f key (rtp * 2 ^ 32 + seq) packets) (replaceAnc f key packets) s

/-! ### Frames (R204, R205, R208, R209) -/

/-- Whether a leg matches a frame received on port `x` (R208). -/
def State.legTakes (s : State) (x f : Nat) (l : Leg) (r : RxFrame) : Bool :=
  let m := s.legMatch f l
  s.fld (FLOW.CFG_KIND f) != 0 && s.legOn f l && s.legPort f l = x && nth m 1 0 = r.dstIp.toNat && nth m 2 0 = r.udp.toNat
    && (nth m 3 0 = 0 || nth m 3 0 = r.srcIp.toNat) && nth m 4 0 = r.tags && (r.tags = 0 || nth m 5 0 = r.vid.toNat)

/-- The flow context and leg that a frame matches. -/
def State.flowFor (s : State) (x : Nat) (r : RxFrame) : Option (Nat × Leg) :=
  match (List.range 64).find? (fun f => s.legTakes x f .a r || s.legTakes x f .b r) with
  | some f => some (f, if s.legTakes x f .a r then .a else .b)
  | none => none

/-- Whether a frame's destination is one that port `x` passes on: its own address, broadcast, the PTP addresses, a joined group (R204). A general
IGMP query comes to 224.0.0.1, which every host that answers queries is a member of (log entry 41). -/
def State.addressed (s : State) (x : Nat) (r : RxFrame) : Bool :=
  let d := r.dstMac.toNat
  d = s.fld (MAC.ADDR_ADDR x) || d = 0xFFFFFFFFFFFF || d = 0x01005E000181 || d = 0x0180C200000E
    || (s.groups x).any (fun g => d = groupMac g)
    || (r.kind = .igmpQuery && s.fld (MAC.CFG_IGMP_EN x) = 1 && d = groupMac 0xE0000001)

/-- A frame that the MAC passes on: the responder, TMB, or the flow that matches it; one that no leg matches is filtered (R209). A matched video
packet is ING_PACKET's. ING is Concourse master 24. -/
def passFrame (x : Nat) (r : RxFrame) (s : State) : State :=
  match r.kind with
  | .arpRequest target =>
    if s.fld (MAC.CFG_ARP_EN x) = 1 ∧ target.toNat = s.fld (MAC.IPV4_IPV4 x) then sendSystem x (s.arpReply x r.srcMac r.srcIp) s else s
  | .igmpQuery => reportGroups x 2 (s.groups x) s
  | .ptp m pdelay => if pdelay ∧ m.dot1as ∧ s.hears x m then sendPdelayResp x s else s
  | .pause => s
  | _ =>
    match s.flowFor x r with
    | none => filtered x s
    | some (f, leg) =>
      if s.stopped 24 then s
      else
        let kind := s.fld (FLOW.CFG_KIND f)
        match r.kind with
        | .audio pt rtp seq payload =>
          let t := legHeard f leg s
          if kind = 2 then audioPacket f leg pt rtp.toNat seq.toNat payload t else misfit f 1 t
        | .ancillary pt rtp seq packets =>
          let t := legHeard f leg s
          if kind = 3 then ancPacket f leg pt rtp.toNat seq.toNat packets t else misfit f 1 t
        | .video => if kind = 1 then s else misfit f 1 (legHeard f leg s)
        | _ => misfit f 1 (legHeard f leg s)

/-- A received frame after the codewords of R205 were counted: discarded by length, FCS, kind, tags or address, or passed on (R204). -/
def receive (x : Nat) (r : RxFrame) (s : State) : State :=
  if s.fld (MAC.CFG_MAX_FRAME x) < r.size then s.addAcc (MAC.RX_OVERSIZE_V x).key
  else if r.size < 64 then s.addAcc (MAC.RX_UNDERSIZE_V x).key
  else if r.fcsOk = false then s.addAcc (MAC.RX_FCS_ERR_V x).key
  else if r.kind = .pause then s.addAcc (MAC.RX_PAUSE_V x).key
  else if 2 ≤ r.tags ∨ s.addressed x r = false then filtered x s
  else passFrame x r ((s.addAcc (MAC.RX_FRAMES_V x).key).addAcc (MAC.RX_BYTES_V x).key r.size)

/-- A frame's codewords are counted where the port runs FEC (R186, R205). -/
def countFec (x : Nat) (r : RxFrame) (s : State) : State :=
  if s.fecOn x then
    let t := (s.addAcc (MAC.FEC_CORR_CW_V x).key r.fecCorr).addAcc (MAC.FEC_UNCORR_CW_V x).key r.fecUncorr
    t.addAcc (MAC.FEC_SYMBOLS_V x).key r.fecSym
  else s

/-- Whether a frame is one that the port sent into its own near-end loop. -/
def Echo.fits (e : Echo) (r : RxFrame) : Bool :=
  !e.heard && e.size = r.size && e.tags = r.tags && e.dstMac = r.dstMac.toNat && e.srcIp = r.srcIp.toNat && e.dstIp = r.dstIp.toNat
    && e.udp = r.udp.toNat

/-- The port's own frames after the MAC received one of them: a video packet stays for ING (R199). -/
def takeEcho (r : RxFrame) : List Echo → List Echo
  | [] => []
  | e :: l => if e.fits r then (if r.kind = .video then { e with heard := true } :: l else l) else e :: takeEcho r l

/-- FRAME_RECEIVE (R163, R197, R199, R204): a frame is received on an ACTIVE port. Under a near-end loop the lands are ignored: only a frame
that the port itself sent is received. -/
def execFrameReceive (port : Fin 4) (frame : RxFrame) (s : State) : Out :=
  finish s <|
    let x := port.val
    let l := s.lane x
    if s.inService ∧ s.portActive x ∧ (s.looped x = false ∨ l.echoes.any (fun e => e.fits frame)) then
      receive x frame (countFec x frame (stampRx x (heardBlock x .payload (s.setLane x { l with echoes := takeEcho frame l.echoes }))))
    else s

end Sys2Proof.Machine
end

