-- ==== Sys2Proof/Machine/Uasyn.lean ====
section
/-!
DEFINITION. Machine/Uasyn.lean: the Uasyn link's request frames and replies (spec 04 R105 to R108, 05 R151).
-/
namespace Sys2Proof.Machine

/-- A request: its first byte (OP and SEQ), address and data. -/
structure UasynReq where
  head : Byte
  addr : Nat
  data : Reg
deriving DecidableEq, Repr

/-- OP of a request: 1 read, 2 write. -/
def UasynReq.op (r : UasynReq) : Nat := r.head.toNat / 16

/-- The bytes of a request of which `head` is the first: a write's 11, any other's 5. -/
def uasynLength (head : Byte) : Nat := if head.toNat / 16 = 2 then 11 else 5

/-- What the device makes of the bytes it received: none where the frame ends before the request does, else the request and whether its
CRC holds. -/
def parseUasyn (frame : List Byte) : Option (UasynReq × Bool) :=
  match frame with
  | [] => none
  | head :: _ =>
    let n := uasynLength head
    if frame.length < n then none
    else
      let body := frame.take (n - 1)
      some (⟨head, beNat ((body.drop 1).take 3), BitVec.ofNat 48 (beNat (body.drop 4))⟩,
        decide (crc8 body = (nth frame (n - 1) 0).toNat))

/-- The state with a reply sent, `write` remembered as the last write applied. -/
def sendUasyn (r : UasynReq) (code : Code) (data : Reg) (write : Bool) (t : State) : State :=
  let u := answerUasyn r.head code data t
  { u with replies := { u.replies with
      lastWrite := if write then some (BitVec.ofNat 4 r.head.toNat, BitVec.ofNat 24 r.addr, r.data, uasynReply r.head (t.rsw code) data) else none } }

/-- Whether a write completed with this CODE was applied: it was not refused. -/
def Code.applied (c : Code) : Bool := c = .ok || c = .zeroLength || c = .stale

/-- The stored reply where a write request repeats the last write applied, no other request between (R108). -/
def State.repeated (s : State) (r : UasynReq) : Option (List Byte) :=
  match s.replies.lastWrite with
  | none => none
  | some (seq, addr, data, bytes) =>
    if seq = BitVec.ofNat 4 r.head.toNat ∧ addr = BitVec.ofNat 24 r.addr ∧ data = r.data then some bytes else none

/-- A request frame whose last CRC byte has been received (R105 to R108). -/
def uasynRequest (r : UasynReq) (good : Bool) (s : State) : State :=
  if good = false ∨ (r.op ≠ 1 ∧ r.op ≠ 2) ∨ r.addr % 8 ≠ 0 then sendUasyn r .decodeError 0 false (bump s s)
  else if r.op = 1 then
    let x := uasynPathRead r.addr (registerAt r.addr).isSome (readReg .uasyn r.addr) s
    sendUasyn r x.2.2 x.2.1 false (bump s x.1)
  else match s.repeated r with
    | some bytes => { s with replies := { s.replies with uasyn := if s.drives then bytes else [] } }
    | none =>
      let x := s.writeAt .uasyn r.addr r.data
      sendUasyn r x.2 0 x.2.applied (bump s x.1)

/-- A frame on the link: nothing answers while VIN_MAIN is absent (R461), and a frame that ends before its request is discarded (R107). -/
def uasynFrame (frame : List Byte) (s : State) : Out :=
  done s (if s.reaches .uasyn then
    (match parseUasyn frame with
     | some (r, good) => uasynRequest r good s
     | none => s)
  else s)

/-- UASYN_READ (R105, R107). -/
def execUasynRead (frame : List Byte) (s : State) : Out := uasynFrame frame s

/-- UASYN_WRITE (R105, R107, R108). -/
def execUasynWrite (frame : List Byte) (s : State) : Out := uasynFrame frame s

/-- UASYN_FRAME_ABORT (R107): MGT_SEL_N rises `bits` bits into the request, before its CRC byte ends: no access and no reply. -/
def execUasynFrameAbort (_bits : Nat) (s : State) : Out := finish s s

/-- KEEPER_BRIDGE_TIMEOUT (R151): the register bus does not answer a valid request for a page other than KPR within 2 µs; the reply carries
BUSY. Whether a write took effect is not stated: a free value. -/
def execKeeperBridgeTimeout (frame : List Byte) (s : State) : Out :=
  match parseUasyn frame with
  | none => finish s s
  | some (r, good) =>
    if s.reaches .uasyn = false ∨ good = false ∨ (r.op ≠ 1 ∧ r.op ≠ 2) ∨ r.addr % 8 ≠ 0 ∨ baseOf r.addr = Pg.kpr
        ∨ s.answers (baseOf r.addr) = false ∨ (registerAt r.addr).isNone then finish s s
    else
      let (took, t) := s.freeBool
      let u := if r.op = 2 ∧ took then (t.writeAt .uasyn r.addr r.data).1 else t
      done s (sendUasyn r .busy 0 false (bump s u))

end Sys2Proof.Machine
end

