-- ==== Sys2Proof/Machine/Rings.lean ====
section
/-!
DEFINITION. Machine/Rings.lean: command and reply rings, the ring opcodes and heartbeats (spec 04 R117 to R125, 10 R285).
-/
namespace Sys2Proof.Machine

/-! ### Rings (R117, R118, R123) -/

/-- Entries of reply ring `r` that the device may still write: a ring holds at most ENTRIES - 1. -/
def State.replyFree (s : State) (r : Nat) : Nat :=
  let n := s.fld (ringEntries true r)
  if n = 0 then 0 else n - 1 - (s.fld (ringPi true r) + n - s.fld (ringCi true r)) % n

/-- Whether ring `r` has a command that can be fetched now. -/
def State.ringReady (s : State) (r : Nat) : Bool :=
  s.fld (ringEntries false r) != 0 && s.fld (ringPi false r) != s.fld (ringCi false r) && decide (1 ≤ s.replyFree r)

/-- Whether the device serves the rings: in service, core 0 running, the link up in D0 (R98, R124, R466). -/
def State.ringsRun (s : State) : Bool := s.inService && s.coreRuns 0 && s.hif.linkUp && !s.hif.d3hot

/-- The next ring in round robin that has a command. -/
def State.nextRing (s : State) : Option Nat :=
  ((List.range 16).map (fun i => (s.hif.lastRing + 1 + i) % 16)).find? (fun r => s.ringReady r)

/-- The host address of a ring (BASE holds bits [59:12]). -/
def State.ringBase (s : State) (reply : Bool) (r : Nat) : Nat := 4096 * s.fld (ringFld reply r 0 48)

/-! ### Descriptors (R119, R120, R285) -/

/-- A word of a command. -/
def RingCmd.word (c : RingCmd) (k : Nat) : Nat := (nth c.words k 0).toNat
def RingCmd.tag (c : RingCmd) : Nat := c.word 0 / 2 ^ 32
def RingCmd.opcode (c : RingCmd) : Nat := c.word 0 % 256
def RingCmd.length (c : RingCmd) : Nat := c.word 1 % 2 ^ 32
def RingCmd.addr (c : RingCmd) : Nat := c.word 2
def RingCmd.operand (c : RingCmd) (i : Nat) : Nat := c.word (3 + i)

/-- The opcode is one that the spec defines. -/
def opcodeDefined (op : Nat) : Bool := (1 ≤ op && decide (op ≤ 4)) || op = 0x20

/-- The output that an ARC_SET_SEI command names. -/
def RingCmd.seiOutput (c : RingCmd) : Nat :=
  let slot := c.operand 0 % 8
  if bitAt (c.operand 0) 8 then proxyOut slot else contribution slot (c.operand 0 / 16 % 16)

/-- The rules of R285 for a descriptor. -/
def State.seiHolds (s : State) (c : RingCmd) : Bool :=
  let o := c.operand 0
  decide (c.length ≤ 1024) && !bitAt o 3 && decide (o < 512) && decide (c.operand 1 < 2)
    && decide (c.operand 2 = 0 ∧ c.operand 3 = 0 ∧ c.operand 4 = 0)
    && (bitAt o 8 || decide (o / 16 % 16 < substreamsOf (s.size (o % 8))))

/-- The length and alignment rules of an opcode. -/
def State.lengthHolds (s : State) (c : RingCmd) : Bool :=
  match c.opcode with
  | 1 => c.length % 16 = 0
  | 2 => c.length % 8 = 0
  | 0x20 => s.seiHolds c
  | _ => c.length % 64 = 0 && c.operand 0 % 64 = 0 && decide (c.length ≤ 16777216)

/-- The checks of a descriptor in their order (R120). -/
def State.checkCommand (s : State) (c : RingCmd) : Code :=
  if opcodeDefined c.opcode = false ∨ c.word 0 / 256 % 2 ^ 24 ≠ 0 ∨ c.word 1 / 2 ^ 32 ≠ 0 then .badDescriptor
  else if c.length = 0 then .zeroLength
  else if s.lengthHolds c = false then .badDescriptor
  else .ok

/-! ### Replies (R121 to R123) -/

/-- The 32 bytes at reply ring `r`'s producer index are written, words 1 to 3 before word 0 (R122), and the index advances; PHASE turns at the
ring's end. -/
def pushReply (r : Nat) (words : List Nat) (s : State) : State :=
  let n := s.fld (ringEntries true r)
  let i := s.fld (ringPi true r)
  let a := s.ringBase true r + 32 * i
  let t := { s with host := Memory.write (Memory.write s.host (a + 8) ((words.drop 1).map (leBytes 8)).flatten) a (leBytes 8 (nth words 0 0)) }
  let t := t.setFld (ringPi true r) ((i + 1) % n)
  if i + 1 = n then
    { t with hif := { t.hif with phase := (List.range 16).map (fun k => if k = r then 1 - nth t.hif.phase k 1 else nth t.hif.phase k 1) } }
  else t

/-- The command in execution completes: its reply is written, or discarded where the reply ring was disabled, and CI advances (R118, R121,
R123). Where a ring was disabled and enabled again in between, the reply goes into the ring as it now stands, and CI becomes the index after
the command's own: the spec does not say (DESIGN CHOICE, log entry 84). -/
def completeCommand (c : RingCmd) (code : Code) (done' : Nat) (s : State) : State :=
  if s.hif.cur = none then s
  else
    let r := c.ring
    let t := { s with hif := { s.hif with cur := none } }
    let t := if t.fld (ringEntries true r) = 0 then t.satFld HIF.PCIE_STAT_RPL_DROPPED
      else pushReply r [c.tag * 2 ^ 32 + nth t.hif.phase r 1 * 2 ^ 16 + t.rsw code, done' * 2 ^ 32 + c.index,
        secOf t.ctr % 2 ^ 32 * 2 ^ 32 + nsOf t.ctr, 0] t
    let n := t.fld (ringEntries false r)
    if n = 0 then t else t.setFld (ringCi false r) ((c.index + 1) % n)

/-- The command in execution, when it is of this opcode and can complete: its reply can be written, or its ring is disabled, by a write or by
the loss of the link, and the reply is discarded (R98, R123). -/
def State.current (s : State) (op : Nat) : Option RingCmd :=
  match s.hif.cur with
  | none => none
  | some c =>
    if s.inService ∧ s.coreRuns 0 ∧ c.opcode = op ∧ (s.fld (ringEntries true c.ring) = 0 ∨ (s.ringsRun ∧ 1 ≤ s.replyFree c.ring)) then some c
    else none

/-- Bytes written to the host's memory, which only a link in L0 carries. -/
def hostStore (addr : Nat) (bytes : List Byte) (s : State) : State :=
  if s.hif.linkUp then { s with host := Memory.write s.host addr bytes } else s

/-- A command ends with the cycle that did its work: the reply is a snapshot of the state after that (R91). -/
def completes (c : RingCmd) (code : Code) (done' : Nat) (s t : State) : Out := done s (completeCommand c code done' (bump s t))

/-- A list ends: each of its entries took a cycle of its own, in which the attention generation already moved (R92, R103). -/
def listCompletes (c : RingCmd) (code : Code) (done' : Nat) (s t : State) : Out := done s (completeCommand c code done' t)

/-- COMMAND_FETCH (R118 to R120): the next ring's descriptor is fetched and checked; a malformed one, or one of length 0, completes at once;
an accepted one extends the configuration measurement (R86). A failed fetch disables the ring. -/
def execCommandFetch (fetched : Option (Vector (BitVec 64) 8)) (s : State) : Out :=
  finish s <|
    if s.ringsRun = false ∨ s.hif.cur.isSome then s
    else match s.nextRing with
    | none => s
    | some r =>
      let t := { s with hif := { s.hif with lastRing := r } }
      match fetched with
      | none =>
        let t := t.setFld HIF.RING_FAULT_CQ (orBit (t.fld HIF.RING_FAULT_CQ) r)
        (ringSwitch false r 0 t).raise Pg.hif 0
      | some w =>
        let c : RingCmd := ⟨r, t.fld (ringCi false r), w.toList, .ok⟩
        let code := t.checkCommand c
        let t := { t with hif := { t.hif with cur := some c } }
        if code = .ok then extend ((w.toList.map (fun x => leBytes 8 x.toNat)).flatten) t else completeCommand c code 0 t

/-! ### REG_WRITE_LIST and REG_READ_LIST (R120) -/

/-- Whether a CODE refuses a write. -/
def Code.refuses (c : Code) : Bool := !c.applied

/-- The writes of a list in order, one register write per cycle: how many were applied, the CODE that stopped the list, the state after. A
master reset of the port stops it with STALE, and so does the end of service; an entry whose target has not responded within 2 µs, the one
numbered `late`, with BUSY (R138). -/
def writeList : List (BitVec 64 × BitVec 64) → Option Nat → State → Nat × Code × State
  | [], _, s => (0, .ok, s)
  | e :: l, late, s =>
    if s.inService ∧ s.inReset 28 then (0, .stale, countError 28 s)
    else
      let addr := if e.1.toNat < 2 ^ 24 then e.1.toNat else 2 ^ 24
      let v : Reg := BitVec.ofNat 48 e.2.toNat
      let r := if late = some 0 then s.writeLate .ring addr v else s.writeAt .ring addr v
      let t := bump s r.1
      if r.2.refuses ∨ t.hif.cur = none then (0, r.2, t)
      else
        let x := writeList l (late.map (· - 1)) t
        (x.1 + 1, x.2.1, x.2.2)

/-- REG_WRITE_LIST (R120): `entries` are the buffer's address and data pairs. -/
def execRegWriteList (entries : List (BitVec 64 × BitVec 64)) (s : State) (late : Option Nat := none) : Out :=
  match s.current 1 with
  | none => finish s s
  | some c =>
    if c.length ≠ 16 * entries.length then finish s s
    else
      let r := writeList entries late s
      listCompletes c r.2.1 r.1 s r.2.2

/-- The reads of a list in order, each replaced by its RSW and data, as a BAR0 read; the entry numbered `late` gets no response in time. -/
def readList : List (BitVec 64) → Option Nat → State → List Nat × State
  | [], _, s => ([], s)
  | a :: l, late, s =>
    let addr := if a.toNat < 2 ^ 24 then a.toNat else 2 ^ 24
    let slow := decide (late = some 0) && s.inService && baseOf addr != Pg.kpr
    let r := hostRead .ring addr (registerAt addr).isSome (if slow then lateRead else readReg .ring addr) s
    let t := bump s r.1
    let x := readList l (late.map (· - 1)) t
    ((t.rsw r.2.2 * 2 ^ 48 + r.2.1.toNat) :: x.1, x.2)

/-- REG_READ_LIST (R120): the entries are overwritten in place. -/
def execRegReadList (addrs : List (BitVec 64)) (s : State) (late : Option Nat := none) : Out :=
  match s.current 2 with
  | none => finish s s
  | some c =>
    if c.length ≠ 8 * addrs.length then finish s s
    else
      let r := readList addrs late s
      listCompletes c .ok addrs.length s (hostStore c.addr ((r.1.map (leBytes 8)).flatten) r.2)

/-! ### HBM_READ and HBM_WRITE (R120, R140, R360) -/

/-- The bytes of a region from `addr` that lie in HBM and inside the port's masks, up to `n`: 64-byte blocks until the first that does not. -/
def State.hbmReach (s : State) (write : Bool) (addr n : Nat) : Nat :=
  if 2 ^ 35 ≤ addr then 0
  else
    let regions := (List.range 17).map (fun i => addr / 2 ^ 31 + i)
    match regions.find? (fun k => decide (16 ≤ k) || s.permits 28 write (.hbm (k * 2 ^ 31)) = false) with
    | some k => min n (k * 2 ^ 31 - addr)
    | none => n

/-- The CODE of a copy that reached `m` of `n` bytes from `addr`: beyond HBM no target answers, else the masks refuse. -/
def copyCode (addr m n : Nat) : Code := if m = n then .ok else if 2 ^ 35 ≤ addr + m then .decodeError else .permission

/-- The state after a copy that stopped short: the refused beat is counted (R134, R137). -/
def copyStopped (addr m n : Nat) (s : State) : State :=
  if m = n then s
  else if 2 ^ 35 ≤ addr + m then dfltHit 28 ((addr + m) % 2 ^ 36) s
  else countError 28 s

/-- The bytes of a copy before the 64-byte block numbered `late`, whose target has not responded within 2 µs (R134). -/
def beforeLate (m : Nat) : Option Nat → Nat
  | none => m
  | some k => min m (64 * k)

/-- HBM_READ (R120, R360): bytes go to host memory, with EP set where a poisoned beat is among them. A block that times out ends the copy with
CODE BUSY, as R138 has it of a list's entry (DEDUCED, log entry 87). -/
def execHbmRead (s : State) (late : Option Nat := none) : Out :=
  match s.current 3 with
  | none => finish s s
  | some c =>
    let a := c.operand 0
    let m := s.hbmReach false a c.length
    let n := beforeLate m late
    if s.inReset 28 then completes c .stale 0 s (countError 28 s)
    else if s.readable a n = false then finish s s
    else
      let (bytes, bad, t) := s.hbmRead a n
      let t := hostStore c.addr bytes { t with replies := { t.replies with ep := epOf s.mps c.addr n a bad } }
      if n < m then completes c .busy n s t
      else completes c (copyCode a m c.length) m s (copyStopped a m c.length t)

/-- HBM_WRITE (R120, R143): `bytes` are the buffer's. A frozen port refuses it; a write outside the mask freezes nothing. Whether a block that
timed out was written is a free value. -/
def execHbmWrite (bytes : List Byte) (s : State) (late : Option Nat := none) : Out :=
  match s.current 4 with
  | none => finish s s
  | some c =>
    let a := c.operand 0
    if bytes.length ≠ c.length then finish s s
    else if s.frozen 28 then completes c .frozen 0 s s
    else if s.inReset 28 then completes c .stale 0 s (countError 28 s)
    else if s.writable a (beforeLate (s.hbmReach true a c.length) late) = false then finish s s
    else
      let m := s.hbmReach true a c.length
      let n := beforeLate m late
      let t := s.hbmWrite a (bytes.take n)
      if n < m then
        let (took, t) := t.freeBool
        completes c .busy n s (if took then t.hbmWrite (a + n) ((bytes.drop n).take 64) else t)
      else completes c (copyCode a m c.length) m s (copyStopped a m c.length t)

/-! ### ARC_SET_SEI (R285) -/

/-- ARC_SET_SEI: the payload is kept for the output's next GDR period; CLEAR removes it there. -/
def execArcSetSei (payload : List Byte) (s : State) : Out :=
  match s.current 0x20 with
  | none => finish s s
  | some c =>
    finish s <|
      let clear := bitAt (c.operand 1) 0
      if clear = false ∧ payload.length ≠ c.length then s
      else
        let t := s.onOut c.seiOutput (fun r => { r with seiNext := some (if clear then [] else payload) })
        completeCommand c .ok (if clear then 0 else c.length) t

/-! ### Heartbeats (R98, R125) -/

/-- HEARTBEAT: a period of HB_CFG has passed since the last one, or since reply ring 0 was enabled. It is written when two entries are free,
else missed. -/
def execHeartbeat (s : State) : Out :=
  finish s <|
    match s.hif.hbNext with
    | none => s
    | some due =>
      if s.inService = false ∨ s.coreRuns 0 = false ∨ s.fld (ringEntries true 0) = 0 ∨ s.cyc < due then s
      else
        let t := { s with hif := { s.hif with hbNext := some (due + s.hbPeriod) } }
        if t.hif.d3hot = false ∧ t.hif.linkUp ∧ 2 ≤ t.replyFree 0 then
          let h := t.hif
          let t := { t with hif := { h with hbSeq := (h.hbSeq + 1) % 2 ^ 32, hbMissed := 0 } }
          pushReply 0 [2 ^ 24 + nth h.phase 0 1 * 2 ^ 16 + t.rsw .ok, h.hbMissed * 2 ^ 48 + t.attnSum * 2 ^ 32 + t.attnGen,
            secOf t.ctr % 2 ^ 32 * 2 ^ 32 + nsOf t.ctr, h.hbSeq] t
        else
          ({ t with hif := { t.hif with hbMissed := min 65535 (t.hif.hbMissed + 1) } }).raise Pg.hif 1

end Sys2Proof.Machine
end

