-- ==== Sys2Proof/Machine/Dispatch.lean ====
section
/-!
DEFINITION. Machine/Dispatch.lean: one arm per command, each a direct call of its meaning.
-/
namespace Sys2Proof.Machine

def exec (i : Instr) (s : State) : Host.Outcome State Fault Refusal :=
  match i with
  | .vinAuxRise => Sys2Proof.Machine.execVinAuxRise s
  | .vinMainRise => Sys2Proof.Machine.execVinMainRise s
  | .resetNRise => Sys2Proof.Machine.execResetNRise s
  | .resetNLow ns => Sys2Proof.Machine.execResetNLow ns s
  | .vinAuxLoss => Sys2Proof.Machine.execVinAuxLoss s
  | .railCheck mainMv mainDa auxMv auxCa => Sys2Proof.Machine.execRailCheck mainMv mainDa auxMv auxCa s
  | .pciePerstNChange high => Sys2Proof.Machine.execPciePerstNChange high s
  | .thermalSample die hbm0 hbm1 => Sys2Proof.Machine.execThermalSample die hbm0 hbm1 s
  | .throttleEntry => Sys2Proof.Machine.execThrottleEntry s
  | .throttleRelease => Sys2Proof.Machine.execThrottleRelease s
  | .thermalTrip => Sys2Proof.Machine.execThermalTrip s
  | .bootRomReady => Sys2Proof.Machine.execBootRomReady s
  | .stageWriteBar2 offset bytes => Sys2Proof.Machine.execStageWriteBar2 offset bytes s
  | .stageDataWrite path data => Sys2Proof.Machine.execStageDataWrite path data s
  | .bootGo path => Sys2Proof.Machine.execBootGo path s
  | .verifyDone us => Sys2Proof.Machine.execVerifyDone us s
  | .initDone us trainUs repairs defaults fail => Sys2Proof.Machine.execInitDone us trainUs repairs defaults fail s
  | .initStepTimeout step us => Sys2Proof.Machine.execInitStepTimeout step us s
  | .rbCommit path => Sys2Proof.Machine.execRbCommit path s
  | .ownerProg path confirm => Sys2Proof.Machine.execOwnerProg path confirm s
  | .fuseProgDone => Sys2Proof.Machine.execFuseProgDone s
  | .attGo path => Sys2Proof.Machine.execAttGo path s
  | .attReportDone => Sys2Proof.Machine.execAttReportDone s
  | .attDataRead path => Sys2Proof.Machine.execAttDataRead path s
  | .otpDataRead path => Sys2Proof.Machine.execOtpDataRead path s
  | .registerWrite path addr data size be late => Sys2Proof.Machine.execRegisterWrite path addr data size be s late
  | .bar0BadSizeRead addr size late => Sys2Proof.Machine.execBar0BadSizeRead addr size s late
  | .bar2Read offset len resp => Sys2Proof.Machine.execBar2Read offset len resp s
  | .bar2Write offset bytes resp => Sys2Proof.Machine.execBar2Write offset bytes resp s
  | .bar4Read offset len => Sys2Proof.Machine.execBar4Read offset len s
  | .bar4Write offset bytes => Sys2Proof.Machine.execBar4Write offset bytes s
  | .uasynRead frame => Sys2Proof.Machine.execUasynRead frame s
  | .uasynWrite frame => Sys2Proof.Machine.execUasynWrite frame s
  | .uasynFrameAbort bits => Sys2Proof.Machine.execUasynFrameAbort bits s
  | .shadowArm path page view => Sys2Proof.Machine.execShadowArm path page view s
  | .shadowDisarm path page view atCommit => Sys2Proof.Machine.execShadowDisarm path page view atCommit s
  | .shadowCommit page => Sys2Proof.Machine.execShadowCommit page s
  | .softReset path page => Sys2Proof.Machine.execSoftReset path page s
  | .eventClear path page bits recurs => Sys2Proof.Machine.execEventClear path page bits recurs s
  | .commandFetch fetched => Sys2Proof.Machine.execCommandFetch fetched s
  | .regWriteList entries late => Sys2Proof.Machine.execRegWriteList entries s late
  | .regReadList addrs late => Sys2Proof.Machine.execRegReadList addrs s late
  | .hbmRead late => Sys2Proof.Machine.execHbmRead s late
  | .hbmWrite bytes late => Sys2Proof.Machine.execHbmWrite bytes s late
  | .arcSetSei payload => Sys2Proof.Machine.execArcSetSei payload s
  | .heartbeat => Sys2Proof.Machine.execHeartbeat s
  | .defaultHit master addr => Sys2Proof.Machine.execDefaultHit master addr s
  | .fabTimeout master id addr => Sys2Proof.Machine.execFabTimeout master id addr s
  | .masterViolation master kind write addr => Sys2Proof.Machine.execMasterViolation master kind write addr s
  | .drainDone master => Sys2Proof.Machine.execDrainDone master s
  | .thaw path master reset => Sys2Proof.Machine.execThaw path master reset s
  | .keeperBridgeTimeout frame => Sys2Proof.Machine.execKeeperBridgeTimeout frame s
  | .pcieHotReset => Sys2Proof.Machine.execPcieHotReset s
  | .pcieD3hot => Sys2Proof.Machine.execPcieD3hot s
  | .pcieD0Return => Sys2Proof.Machine.execPcieD0Return s
  | .pcieLinkUp rate width => Sys2Proof.Machine.execPcieLinkUp rate width s
  | .ptpSecond => Sys2Proof.Machine.execPtpSecond s
  | .pllLoss root keeper => Sys2Proof.Machine.execPllLoss root keeper s
  | .offsetSample heard t1 t2 cs firstCyc => Sys2Proof.Machine.execOffsetSample heard t1 t2 cs firstCyc s
  | .delaySample heard t1 t2 t3 t4 cs cd linkDelay firstCyc => Sys2Proof.Machine.execDelaySample heard t1 t2 t3 t4 cs cd linkDelay firstCyc s
  | .pathHoldEnd => Sys2Proof.Machine.execPathHoldEnd s
  | .announceReceive heard data => Sys2Proof.Machine.execAnnounceReceive heard data s
  | .sourceLost declared => Sys2Proof.Machine.execSourceLost declared s
  | .delayReqSend port => Sys2Proof.Machine.execDelayReqSend port s
  | .timeStep path neg ns => Sys2Proof.Machine.execTimeStep path neg ns s
  | .ptpModeWrite path mode => Sys2Proof.Machine.execPtpModeWrite path mode s
  | .ptpCfgWrite path data => Sys2Proof.Machine.execPtpCfgWrite path data s
  | .refPeriodEnd periodPs => Sys2Proof.Machine.execRefPeriodEnd periodPs s
  | .refQualified => Sys2Proof.Machine.execRefQualified s
  | .refEdgeOffset => Sys2Proof.Machine.execRefEdgeOffset s
  | .laneCalDone port trim => Sys2Proof.Machine.execLaneCalDone port trim s
  | .signalDetect port => Sys2Proof.Machine.execSignalDetect port s
  | .cdrLock port => Sys2Proof.Machine.execCdrLock port s
  | .adaptConverged port lanes => Sys2Proof.Machine.execAdaptConverged port lanes s
  | .alignComplete port => Sys2Proof.Machine.execAlignComplete port s
  | .adaptFail port => Sys2Proof.Machine.execAdaptFail port s
  | .linkDown port cdrLost => Sys2Proof.Machine.execLinkDown port cdrLost s
  | .idleFreeze port payload lost => Sys2Proof.Machine.execIdleFreeze port s payload lost
  | .adaptResume port lost => Sys2Proof.Machine.execAdaptResume port s lost
  | .speedChangeRelock port => Sys2Proof.Machine.execSpeedChangeRelock port s
  | .deepRestExit port => Sys2Proof.Machine.execDeepRestExit port s
  | .laneTestWrite path port data => Sys2Proof.Machine.execLaneTestWrite path port data s
  | .laneEnableWrite path port enable => Sys2Proof.Machine.execLaneEnableWrite path port enable s
  | .frameReceive port frame => Sys2Proof.Machine.execFrameReceive port frame s
  | .ingPacket flow leg pkt => Sys2Proof.Machine.execIngPacket flow leg pkt s
  | .legQuiet flow leg => Sys2Proof.Machine.execLegQuiet flow leg s
  | .lineMergeTimeout slot sub line => Sys2Proof.Machine.execLineMergeTimeout slot sub line s
  | .stripeWindowClose slot sub stripe => Sys2Proof.Machine.execStripeWindowClose slot sub stripe s
  | .stripeAnnounce slot sub => Sys2Proof.Machine.execStripeAnnounce slot sub s
  | .announcementRelease => Sys2Proof.Machine.execAnnouncementRelease s
  | .chinReacquire path slot => Sys2Proof.Machine.execChinReacquire path slot s
  | .pafPassDone slot sub stripe faulted => Sys2Proof.Machine.execPafPassDone slot sub stripe faulted s
  | .lutLoad path slot table => Sys2Proof.Machine.execLutLoad path slot table s
  | .lutLoadDone slot table resp uncorrectable => Sys2Proof.Machine.execLutLoadDone slot table resp uncorrectable s
  | .pictureBoundary slot => Sys2Proof.Machine.execPictureBoundary slot s
  | .rebuildDone slot => Sys2Proof.Machine.execRebuildDone slot s
  | .poolPeriod group => Sys2Proof.Machine.execPoolPeriod group s
  | .dispatchTask consumer => Sys2Proof.Machine.execDispatchTask consumer s
  | .relevelTick => Sys2Proof.Machine.execRelevelTick s
  | .landing bay used ctus => Sys2Proof.Machine.execLanding bay used ctus s
  | .stripeComplete bay coded => Sys2Proof.Machine.execStripeComplete bay coded s
  | .startLimitExpiry task => Sys2Proof.Machine.execStartLimitExpiry task s
  | .deadlineExpiry bay => Sys2Proof.Machine.execDeadlineExpiry bay s
  | .budgetBreach bay ctu => Sys2Proof.Machine.execBudgetBreach bay ctu s
  | .residueMismatch report => Sys2Proof.Machine.execResidueMismatch report s
  | .replayDone bay again equal => Sys2Proof.Machine.execReplayDone bay again equal s
  | .lockstepFault unit => Sys2Proof.Machine.execLockstepFault unit s
  | .floorSynthStart => Sys2Proof.Machine.execFloorSynthStart s
  | .floorSynthDone path => Sys2Proof.Machine.execFloorSynthDone path s
  | .assemblyDone unit cycles => Sys2Proof.Machine.execAssemblyDone unit cycles s
  | .bayEnableWrite path bay enable => Sys2Proof.Machine.execBayEnableWrite path bay enable s
  | .spanRequest path target quietCtu => Sys2Proof.Machine.execSpanRequest path target quietCtu s
  | .spanBoundary => Sys2Proof.Machine.execSpanBoundary s
  | .mezzTaskDone engine coded => Sys2Proof.Machine.execMezzTaskDone engine coded s
  | .mzFloorPoint task => Sys2Proof.Machine.execMzFloorPoint task s
  | .mzmapLoad path slot out => Sys2Proof.Machine.execMzmapLoad path slot out s
  | .mzmapLoadDone slot out resp => Sys2Proof.Machine.execMzmapLoadDone slot out resp s
  | .mzeEnableWrite path engine enable => Sys2Proof.Machine.execMzeEnableWrite path engine enable s
  | .packetTaskDone task => Sys2Proof.Machine.execPacketTaskDone task s
  | .packetRelease queue => Sys2Proof.Machine.execPacketRelease queue s
  | .spillReturn queue => Sys2Proof.Machine.execSpillReturn queue s
  | .frameSelect port => Sys2Proof.Machine.execFrameSelect port s
  | .gateEntryChange port => Sys2Proof.Machine.execGateEntryChange port s
  | .gateListStart port => Sys2Proof.Machine.execGateListStart port s
  | .abortPending path port atStart => Sys2Proof.Machine.execAbortPending path port atStart s
  | .shapeWrite path addr data => Sys2Proof.Machine.execShapeWrite path addr data s
  | .crcFeed path unit data => Sys2Proof.Machine.execCrcFeed path unit data s
  | .crcReset path unit data => Sys2Proof.Machine.execCrcReset path unit data s
  | .valloRead path unit => Sys2Proof.Machine.execValloRead path unit s
  | .scanStart path unit => Sys2Proof.Machine.execScanStart path unit s
  | .scanDone => Sys2Proof.Machine.execScanDone s
  | .scanError fed resp => Sys2Proof.Machine.execScanError fed resp s
  | .scanAbort path fed lastByte => Sys2Proof.Machine.execScanAbort path fed lastByte s
  | .counterWrap counter written => Sys2Proof.Machine.execCounterWrap counter written s
  | .clearAll path => Sys2Proof.Machine.execClearAll path s
  | .timeSecRead path => Sys2Proof.Machine.execTimeSecRead path s
  | .offsetSecRead path => Sys2Proof.Machine.execOffsetSecRead path s
  | .flogW0Read path => Sys2Proof.Machine.execFlogW0Read path s
  | .galleryReadEcc offset flips reader => Sys2Proof.Machine.execGalleryReadEcc offset flips reader s
  | .eccWriteback offset masterWrites => Sys2Proof.Machine.execEccWriteback offset masterWrites s
  | .scrubWord offset flips => Sys2Proof.Machine.execScrubWord offset flips s
  | .hbmReadEcc addr flips onDie onDieBad reader => Sys2Proof.Machine.execHbmReadEcc addr flips onDie onDieBad reader s
  | .hbmRereadDone flips onDieBad reader => Sys2Proof.Machine.execHbmRereadDone flips onDieBad reader s
  | .refreshIntervalEnd pc => Sys2Proof.Machine.execRefreshIntervalEnd pc s
  | .refreshDone pc => Sys2Proof.Machine.execRefreshDone pc s
  | .hbmTempCrossing stack above => Sys2Proof.Machine.execHbmTempCrossing stack above s
  | .selfRefreshEntry channel => Sys2Proof.Machine.execSelfRefreshEntry channel s
  | .selfRefreshExit channel accepted => Sys2Proof.Machine.execSelfRefreshExit channel accepted s
  | .writeBatch pc => Sys2Proof.Machine.execWriteBatch pc s
  | .mergeReadDone pc beat => Sys2Proof.Machine.execMergeReadDone pc beat s
  | .micAbsent mic => Sys2Proof.Machine.execMicAbsent mic s
  | .micResume mic => Sys2Proof.Machine.execMicResume mic s
  | .tdmFrameStart port bclks slots => Sys2Proof.Machine.execTdmFrameStart port bclks slots s
  | .portStall port => Sys2Proof.Machine.execPortStall port s
  | .wclkPeriodEnd periodPs => Sys2Proof.Machine.execWclkPeriodEnd periodPs s
  | .tdmEnableWrite path port enable => Sys2Proof.Machine.execTdmEnableWrite path port enable s
  | .watchdogExpiry core signal => Sys2Proof.Machine.execWatchdogExpiry core signal s
  | .warmReset path confirm => Sys2Proof.Machine.execWarmReset path confirm s
  | .coldReset path confirm => Sys2Proof.Machine.execColdReset path confirm s
  | .coldResetResume => Sys2Proof.Machine.execColdResetResume s
  | .vinMainLoss => Sys2Proof.Machine.execVinMainLoss s
  | .watchdogProgress core => Sys2Proof.Machine.execWatchdogProgress core s
  | .faultRecentExpiry engine => Sys2Proof.Machine.execFaultRecentExpiry engine s
  | .ppsOutFall => Sys2Proof.Machine.execPpsOutFall s
  | .eyeMeasurement lane height width => Sys2Proof.Machine.execEyeMeasurement lane height width s

end Sys2Proof.Machine
end

