-- ==== Sys2Proof/Safety.lean ====
section
/-!
DEFINITION. Safety.lean: what counts as a sound state of the block and as a completed command, in the terms the statements use.
-/
namespace Sys2Proof

open Machine

/-- The memories and the register store are in canonical form: keys strictly rising, no entry equal to what an unlisted key
reads as. -/
def Safety.Canonical (s : Machine.State) : Prop :=
  Memory.wf s.hbm = true ∧ Memory.wf s.gallery = true ∧ Memory.wf s.engineCode = true ∧ Memory.wf s.timeCode = true ∧ Memory.wf s.host = true
    ∧ Store.wf resetValue s.regs = true

/-- A command ends in a next state, and that state meets `P`. -/
def Safety.Ends (o : Machine.Out) (P : Machine.State → Prop) : Prop := ∃ t, o = .next t ∧ P t

/-- The byte memories, the microcode stores, the fuses and the queue are as they were. -/
def Safety.MemoryKept (s t : Machine.State) : Prop :=
  t.hbm = s.hbm ∧ t.gallery = s.gallery ∧ t.engineCode = s.engineCode ∧ t.timeCode = s.timeCode ∧ t.host = s.host ∧ t.otp = s.otp
    ∧ t.pending = s.pending

/-- Every register off the pages that `own` names reads as before. -/
def Safety.PagesKept (own : Nat → Bool) (s t : Machine.State) : Prop := ∀ key, own (keyPage key) = false → t.reg key = s.reg key

/-- Every register but those listed reads as before. -/
def Safety.RegsKept (s t : Machine.State) (keys : List Nat) : Prop := ∀ key, key ∉ keys → t.reg key = s.reg key

/-- HIF's registers have returned to reset (R124), and of the others only those listed have changed. -/
def Safety.HifReset (s t : Machine.State) (keys : List Nat) : Prop :=
  t.hif = { linkUp := s.hif.linkUp, lanesOn := s.hif.lanesOn, d3hot := s.hif.d3hot }
    ∧ (∀ key, keyPage key = 0x4 → t.reg key = resetValue key) ∧ ∀ key, keyPage key ≠ 0x4 → key ∉ keys → t.reg key = s.reg key

/-- Whether a fault of bay `n` in this cycle is the third within 10 s of the first of the last three, and the bay not yet retired (R353). -/
def Safety.retires (s : Machine.State) (n : Nat) : Bool :=
  match (Store.at s.bayLog {} n).faults with
  | _ :: first :: _ => decide (s.cyc ≤ first + tenSeconds) && !bitAt (s.fld ARCC.BAYS_RETIRED) n
  | _ => false

/-- A memory after some bytes were stored from `base` on: those bytes, and every other one as before. -/
def Safety.Stored (old new : List Host.Cell) (base : Nat) (bytes : List Byte) : Prop :=
  ∀ a, Memory.read1 new a = if base ≤ a ∧ a < base + bytes.length then nth bytes (a - base) 0 else Memory.read1 old a

/-- The pages of port `n`: LANEn, MACn and the SDS pages of its four lanes (R185, R474). -/
def Safety.portPages (n g : Nat) : Bool := decide (g = 0x100 + n ∨ g = 0x104 + n ∨ g / 4 = 68 + n)

/-- Nothing but registers and the attention generation changed, and of the registers only those listed. -/
def Safety.OnlyRegs (s t : Machine.State) (keys : List Nat) : Prop :=
  t = { s with regs := t.regs, attnGen := t.attnGen } ∧ ∀ key, key ∉ keys → t.reg key = s.reg key

/-- Event `k` of the page at base `b` stands in PG_EVENT (R109). -/
def Safety.Raised (t : Machine.State) (b k : Nat) : Prop := bitAt (t.fld (PG_EVENT_EVENTS b)) k = true

/-- Whether a violation of a kind is one of an access to a target (R142). -/
def Safety.touches : ViolKind → Machine.FabTarget → Bool
  | .page, .page _ => true
  | .hbm, .hbm _ => true
  | .gallery, .gallery _ => true
  | _, _ => false

/-- A write over a path passes every gate before the register's own behaviour (R57, R99 to R107, R137 to R151). -/
def Safety.Open (path : Path) (addr : Nat) (s : Machine.State) : Prop :=
  match path with
  | .pcie => s.reaches .pcie = true ∧ (baseOf addr = Pg.kpr ∨ (s.frozen 28 = false ∧ (s.answers (baseOf addr) = true ∨ s.inService = true)
      ∧ (s.inService = true → s.inReset 28 = false ∧ s.permits 28 true (.page addr) = true)))
  | .uasyn => s.reaches .uasyn = true ∧ (baseOf addr = Pg.kpr ∨ s.answers (baseOf addr) = true ∨ s.inService = true)
      ∧ (s.inService = true → baseOf addr ≠ Pg.dir ∧ baseOf addr ≠ Pg.fab)
  | .ring => s.inService = true ∧ s.frozen 28 = false
      ∧ (baseOf addr = Pg.kpr ∨ (s.inReset 28 = false ∧ s.permits 28 true (.page addr) = true))
  | .core => s.inService = true ∧ s.frozen 29 = false ∧ s.inReset 29 = false ∧ baseOf addr ≠ Pg.kpr
      ∧ s.permits 29 true (.page addr) = true

/-- A read over a path passes every gate before the register answers. -/
def Safety.OpenRead (path : Path) (addr : Nat) (s : Machine.State) : Prop :=
  s.reaches path = true ∧
  match path with
  | .pcie => baseOf addr = Pg.kpr ∨ ((s.answers (baseOf addr) = true ∨ s.inService = true) ∧ s.frozen 28 = false
      ∧ (s.inService = true → s.inReset 28 = false))
  | .ring => baseOf addr = Pg.kpr ∨ ((s.answers (baseOf addr) = true ∨ s.inService = true) ∧ s.frozen 28 = false
      ∧ (s.inService = true → s.inReset 28 = false))
  | .uasyn => baseOf addr = Pg.kpr ∨ s.answers (baseOf addr) = true ∨ s.inService = true
  | .core => s.inService = true ∧ s.frozen 29 = false ∧ s.inReset 29 = false ∧ baseOf addr ≠ Pg.kpr
      ∧ s.permits 29 false (.page addr) = true

end Sys2Proof
end

