-- ==== Sys2Proof/Certificates/Slice0/Obligations.lean ====
section
/-!
DEFINITION. Certificates/Slice0/Obligations.lean: the statements for the provers.
-/
open Sys2Proof Sys2Proof.Machine

/-! ### The block as a whole -/

/-- With a command at the front of its queue, the block runs that command on the state with the queue's rest.
(The model's choices in it: log entry 1.) -/
def Obligations.StepRunsFrontCommand : Prop :=
  ∀ (c : Instr) (rest : List Instr) (s : State),
    step { s with pending := c :: rest } = exec c { s with pending := rest }

/-- The model's choice (log entry 2): on an empty queue one TIME_CLK cycle passes. The cycle count advances by one; host memory, the fuses
and the queue stay. -/
def Obligations.EmptyQueuePassesOneCycle : Prop :=
  ∀ s : State, s.pending = [] →
    Safety.Ends (step s) (fun t => t.cyc = s.cyc + 1 ∧ t.pending = [] ∧ t.otp = s.otp ∧ t.host = s.host)

/-- Every command of the table ends in a next state and leaves the queue of waiting commands as it stands.
(The model's choices in it: log entry 3.) -/
def Obligations.EveryCommandEndsAndKeepsTheQueue : Prop :=
  ∀ (c : Instr) (s : State), Safety.Ends (exec c s) (fun t => t.pending = s.pending)

/-- R92, R124: the attention generation increments by one, modulo 2^32, exactly when the pending set changes, from 0 where the command returned
HIF to reset; the pending set holds an event bit of a
page (before READY: of KPR, BOOT or SEC) exactly when the bit is set, unmasked and of a class other than 0; the generation's low 4 bits stand
in each RSW and HIF.ATTN_GEN reads all 32. (Not of VIN_AUX_LOSS, with which the keeper itself loses everything, nor of the two lists of
register accesses, which take more than one cycle.)
(The model's choices in it: log entry 8.) -/
def Obligations.AttentionGenerationCountsPendingSetChanges : Prop :=
  ∀ s : State,
    (∀ (c : Instr) (t : State), c ≠ .vinAuxLoss → (∀ l late, c ≠ .regWriteList l late) → (∀ l late, c ≠ .regReadList l late) → exec c s = .next t →
      ∃ g, (g = s.attnGen ∨ g = 0 ∧ t.hif = { linkUp := t.hif.linkUp, lanesOn := t.hif.lanesOn, d3hot := t.hif.d3hot })
        ∧ t.attnGen = if t.pendingSet = s.pendingSet then g else (g + 1) % 2 ^ 32)
    ∧ (∀ (page : Fin 202) (k : Nat), k < 16 → s.inService = true ∨ baseOfIndex page.val ∈ [Pg.kpr, Pg.boot, Pg.sec] →
      ((∃ bits, (baseOfIndex page.val, bits) ∈ s.pendingSet ∧ k ∈ bits)
        ↔ bitAt (s.fld (PG_EVENT_EVENTS (baseOfIndex page.val))) k = true ∧ bitAt (s.fld (PG_EVMASK_MASK (baseOfIndex page.val))) k = false
            ∧ bitsOf (s.reg (baseOfIndex page.val + 0x30)) (3 * k) 3 ≠ 0))
    ∧ (∀ code, s.rsw code % 16 = s.attnGen % 16) ∧ (∀ path, s.readData path 0x4048 = BitVec.ofNat 48 s.attnGen)

/-! ### Power, pins and heat (R32 to R47) -/

/-- R32, R34, R35: a rail enters tolerance, or VIN_MAIN leaves it, and RESET_N rises. A VIN_MAIN found in tolerance before VIN_AUX, or more
than 200 ms after it, raises KPR event 3. No memory changes.
(The model's choices in it: log entry 72.)
(Completion: VIN_AUX_RISE, VIN_MAIN_RISE, RESET_N_RISE, VIN_MAIN_LOSS.) -/
def Obligations.RailsAndResetPinTakeEffect : Prop :=
  ∀ s : State,
    (s.pwr.aux = false → Safety.Ends (exec .vinAuxRise s) (fun t =>
      t.pwr.aux = true ∧ t.clk.keeperPll = true ∧ Safety.MemoryKept s t
        ∧ (s.pwr.main = true → Safety.Raised t Pg.kpr 3) ∧ (s.pwr.main = false → t.regs = s.regs)))
    ∧ (s.pwr.main = false ∨ s.pwr.mainOut = true → Safety.Ends (exec .vinMainRise s) (fun t =>
      t.pwr.main = true ∧ t.pwr.mainOut = false ∧ Safety.MemoryKept s t
        ∧ (s.pwr.aux = true ∧ s.pwr.auxAt + msCyc 200 < s.cyc → Safety.Raised t Pg.kpr 3)
        ∧ (s.pwr.aux = false ∨ s.cyc ≤ s.pwr.auxAt + msCyc 200 → t.regs = s.regs)))
    ∧ (s.pins.resetN = false → Safety.Ends (exec .resetNRise s) (fun t =>
      t.pins.resetN = true ∧ Safety.MemoryKept s t ∧ Safety.RegsKept s t [0x1100] ∧ t.fld KPR.THERM_STAT_DIE_MAX_C = unsignedOf 8 s.pwr.junction
        ∧ (s.pwr.aux = true ∧ s.pwr.auxOut = false ∧ s.pwr.main = true ∧ s.pwr.mainOut = false ∧ s.pwr.coldAt = none
            ∧ s.fld KPR.THERM_STAT_TRIPPED = 0 ∧ s.fld KPR.THERM_STAT_RAIL_FAULT = 0 → t.pwr.core = true)))
    ∧ (s.pins.resetN = false ∨ s.pwr.core = false → Safety.Ends (exec .vinMainLoss s) (fun t =>
      t.pwr.main = false ∧ t.pwr.core = false ∧ t.clk.rootPll = false ∧ Safety.MemoryKept s t ∧ t.regs = s.regs))
    ∧ (s.pins.resetN = true → s.pwr.core = true → exec .vinMainLoss s = .next { s with pwr := { s.pwr with mainOut := true } })

/-- R36, R45, R469, R471: a cold reset, by RESET_N low for 1 µs or more or by KPR.RESET with its CONFIRM, removes core power and the memories'
contents and counts in COLDS; power returns 10 ms later with RESET_N high and no hold, when TRIPPED and RAIL_FAULT clear. A low level
below 100 ns changes nothing.
(The model's choices in it: log entry 55.)
(Completion: RESET_N_LOW, COLD_RESET, COLD_RESET_RESUME.) -/
def Obligations.ColdResetRemovesPowerAndReturns : Prop :=
  ∀ s : State, Store.wf resetValue s.regs = true →
    (∀ ns, s.pwr.aux = true → s.pins.resetN = true → 1000 ≤ ns → Safety.Ends (exec (.resetNLow ns) s) (fun t =>
      t.pins.resetN = false ∧ t.ready = .cold ∧ t.pwr.core = false ∧ t.pwr.coldAt = some s.cyc ∧ t.hbm = [] ∧ t.gallery = []
        ∧ t.fld KPR.RESET_STAT_LAST = 3 ∧ t.fld KPR.RESET_STAT_COLDS = (s.fld KPR.RESET_STAT_COLDS + 1) % 65536 ∧ t.kpr = s.kpr))
    ∧ (∀ ns, s.pwr.aux = true → ns < 100 → exec (.resetNLow ns) s = .next s)
    ∧ (∀ path, Safety.Open path 0x1040 s → s.pwr.coldAt = none → Safety.Ends (exec (.coldReset path 0xB007) s) (fun t =>
      t.ready = .cold ∧ t.pwr.core = false ∧ t.pwr.coldAt = some s.cyc ∧ t.hbm = [] ∧ t.gallery = [] ∧ t.pins = { s.pins with mclkOut := false }
        ∧ t.fld KPR.RESET_STAT_LAST = 2 ∧ t.fld KPR.RESET_STAT_COLDS = (s.fld KPR.RESET_STAT_COLDS + 1) % 65536 ∧ t.kpr = s.kpr))
    ∧ (∀ c, s.pwr.coldAt = some c → s.pwr.aux = true → s.pins.resetN = true → s.pwr.coldHeld = false → c + msCyc 10 ≤ s.cyc →
      Safety.Ends (exec .coldResetResume s) (fun t =>
        t.pwr.coldAt = none ∧ t.pins.tripN = true ∧ t.fld KPR.THERM_STAT_TRIPPED = 0 ∧ t.fld KPR.THERM_STAT_RAIL_FAULT = 0
          ∧ (s.pwr.main = true → s.pwr.mainOut = false → s.pwr.auxOut = false → t.pwr.core = true) ∧ Safety.MemoryKept s t))

/-- R469, R470, R472: an accepted warm reset leaves READY COLD and the memories empty, counts in WARMS, and keeps the keeper's records, the
counter, the pins, the rails and the endpoint's link; of a canonical register store every register that a warm reset keeps reads as before,
but for RESET_STAT and WDOG_STAT, and for the freeze of a master whose violation waited for the end of a drain (R147).
(The model's choices in it: log entry 55.)
(Completion: WARM_RESET.) -/
def Obligations.WarmResetKeepsTheKeeper : Prop :=
  ∀ (s : State) (path : Path), Safety.Open path 0x1040 s → Store.wf resetValue s.regs = true → s.fld KPR.THERM_STAT_TRIPPED = 0 →
    s.fld KPR.THERM_STAT_RAIL_FAULT = 0 → s.pwr.coldAt = none → s.pwr.core = true →
    Safety.Ends (exec (.warmReset path 0xB007) s) (fun t =>
      t.ready = .cold ∧ t.hbm = [] ∧ t.gallery = [] ∧ t.fld KPR.RESET_STAT_LAST = 1 ∧ t.fld KPR.RESET_STAT_BY_WDOG = 0
        ∧ t.fld KPR.RESET_STAT_WARMS = (s.fld KPR.RESET_STAT_WARMS + 1) % 65536 ∧ t.fld KPR.RESET_STAT_COLDS = s.fld KPR.RESET_STAT_COLDS
        ∧ t.ctr = s.ctr ∧ t.valid = s.valid ∧ t.pins = s.pins ∧ t.pwr = s.pwr ∧ t.hif.linkUp = s.hif.linkUp
        ∧ ((∀ m < 31, (s.master m).freezeAt = false) → t.kpr = s.kpr ∧ ∀ key, warmStays key = true → key ≠ 0x1048 → key ≠ 0x1058 → t.reg key = s.reg key))

/-- R37, R38, R47, R98, R472: PCIE_PERST_N follows its level and, low, resets the endpoint's ring registers; PPS_OUT falls 1 ms after its rise and
nothing else changes; the loss of VIN_AUX loses everything but the fuses.
(The model's choices in it: log entries 8, 56.)
(Completion: PCIE_PERST_N_CHANGE, PPS_OUT_FALL, VIN_AUX_LOSS.) -/
def Obligations.PinEventsAndKeeperLoss : Prop :=
  ∀ s : State,
    (∀ high, Safety.Ends (exec (.pciePerstNChange high) s) (fun t =>
      t.pins = { s.pins with perstN := high } ∧ Safety.MemoryKept s t
        ∧ (high = true → t.regs = s.regs ∧ t.hif = s.hif)
        ∧ (high = false → s.pwr.aux = true → t.hif.linkUp = false ∧ ∀ key, isRingKey key = true → t.reg key = resetValue key)))
    ∧ (s.pins.ppsOut = true → s.pins.ppsAt + msCyc 1 ≤ s.cyc → exec .ppsOutFall s = .next { s with pins := { s.pins with ppsOut := false } })
    ∧ Safety.Ends (exec .vinAuxLoss s) (fun t =>
      t.ready = .cold ∧ t.regs = [] ∧ t.hbm = [] ∧ t.gallery = [] ∧ t.kpr = {} ∧ t.attnGen = 0 ∧ t.ctr = 0 ∧ t.valid = false
        ∧ t.pwr.aux = false ∧ t.pwr.core = false ∧ t.otp = s.otpNow ∧ t.pins.resetN = s.pins.resetN)

/-- R39, R42, R460: with VIN_AUX present a sample shows the hottest of the sixteen die sensors (of equal ones the lowest numbered: the model's
choice, log entry 82) and both stacks' temperatures, zero while RESET_N is low, and whether a stack is above 85 °C; nothing but KPR.THERM_STAT
and, once a held cold reset has cooled to 95 °C, RESET_STAT changes among the registers.
(Completion: THERMAL_SAMPLE.) -/
def Obligations.ThermalSampleShowsTheHottestSensor : Prop :=
  ∀ (s : State) (die : Vector (BitVec 8) 16) (hbm0 hbm1 : BitVec 8), s.pwr.aux = true →
    Safety.Ends (exec (.thermalSample die hbm0 hbm1) s) (fun t =>
      let show' (x : Nat) : Nat := if s.pins.resetN then x else 0
      (∃ k : Fin 16, t.fld KPR.THERM_STAT_SITE = show' k.val ∧ t.fld KPR.THERM_STAT_DIE_MAX_C = show' (die[k]).toNat
          ∧ t.pwr.junction = (die[k]).toInt ∧ (∀ j : Fin 16, (die[j]).toInt ≤ (die[k]).toInt) ∧ (∀ j : Fin 16, j < k → (die[j]).toInt < (die[k]).toInt))
        ∧ t.fld KPR.THERM_STAT_HBM0_C = show' hbm0.toNat ∧ t.fld KPR.THERM_STAT_HBM1_C = show' hbm1.toNat
        ∧ t.fld KPR.THERM_STAT_HBM_HOT = b2n (decide (85 < hbm0.toInt ∨ 85 < hbm1.toInt))
        ∧ Safety.MemoryKept s t ∧ (∀ key, key ≠ 0x1100 → key ≠ 0x1048 → t.reg key = s.reg key)
        ∧ (s.pwr.coldHeld = false → t.reg 0x1048 = s.reg 0x1048))

/-- R40, R41, R43, R44: 100 samples in a row of the die or of a stack at its threshold enter the throttle, 10 s of cool ones (1,000,000
samples) release it, and two in a row at a trip threshold trip: power goes, THERM_TRIP_N falls and READY is HALTED.
(The model's choices in it: log entry 56.)
(Completion: THROTTLE_ENTRY, THROTTLE_RELEASE, THERMAL_TRIP.) -/
def Obligations.ThrottleAndThermalTrip : Prop :=
  ∀ s : State, s.pwr.aux = true →
    (s.fld KPR.THERM_STAT_THROTTLE = 0 → 100 ≤ s.pwr.hotRun ∨ 100 ≤ s.pwr.hotStack → s.pwr.tripRun < 2 → s.pwr.tripStack < 2 →
      Safety.Ends (exec .throttleEntry s) (fun t =>
        t.fld KPR.THERM_STAT_THROTTLE = 1 ∧ Safety.Raised t Pg.kpr 0 ∧ Safety.MemoryKept s t ∧ t.ready = s.ready
          ∧ (s.inService = false → Safety.OnlyRegs s t [0x1100, 0x1020])))
    ∧ (s.fld KPR.THERM_STAT_THROTTLE = 1 → 1000000 ≤ s.pwr.coolRun →
      Safety.Ends (exec .throttleRelease s) (fun t =>
        t.fld KPR.THERM_STAT_THROTTLE = 0 ∧ Safety.MemoryKept s t ∧ t.ready = s.ready
          ∧ (s.inService = false → Safety.OnlyRegs s t [0x1100])))
    ∧ (2 ≤ s.pwr.tripRun ∨ 2 ≤ s.pwr.tripStack → s.fld KPR.THERM_STAT_TRIPPED = 0 →
      Safety.Ends (exec .thermalTrip s) (fun t =>
        t.ready = .halted ∧ t.pins.tripN = false ∧ t.pwr.core = false ∧ t.fld KPR.THERM_STAT_TRIPPED = 1 ∧ Safety.Raised t Pg.kpr 1
          ∧ t.hbm = [] ∧ t.gallery = [] ∧ (t.kpr.flog.head?.map (fun r => (r.seq, r.kind, r.cls))) = some (s.kpr.seq, 0x03, 5)))

/-- R35, R37, R460, R483: every sample moves RAIL_STAT's means (log entry 81) and tells whether VIN_AUX is in tolerance. With RESET_N high and
the regulators enabled, a comparison in tolerance clears the run and changes nothing else; the second bad one in a row of a rail is a rail
fault: RAIL_FAULT, KPR event 2, a record of kind 0x02, power removed and READY HALTED.
(The model's choices in it: log entry 56.)
(Completion: RAIL_CHECK.) -/
def Obligations.RailComparisons : Prop :=
  ∀ (s : State) (mv da av ca : Nat), s.pwr.aux = true → mv < 4096 → da < 4096 → av < 4096 →
    ca < 4096 → (∀ x ∈ s.pwr.rails, x.mainMv < 4096 ∧ x.mainDa < 4096 ∧ x.auxMv < 4096 ∧ x.auxCa < 4096) →
    (s.pwr.core = false ∨ s.pins.resetN = false → Safety.Ends (exec (.railCheck mv da av ca) s) (fun t =>
      t.fld KPR.RAIL_STAT_MAIN_MV = meanOf ((mv :: s.pwr.rails.map (·.mainMv)).take 10)
        ∧ t.fld KPR.RAIL_STAT_AUX_MV = meanOf ((av :: s.pwr.rails.map (·.auxMv)).take 10)
        ∧ (t.pwr.auxOut = false ↔ 873 ≤ av ∧ av ≤ 927) ∧ Safety.MemoryKept s t ∧ ∀ key, key ≠ 0x1110 → t.reg key = s.reg key))
    ∧ (s.pwr.core = true → s.pins.resetN = true → (1746 ≤ mv ∧ mv ≤ 1854 ∧ 873 ≤ av ∧ av ≤ 927) →
      Safety.Ends (exec (.railCheck mv da av ca) s) (fun t =>
        t.pwr.badMain = 0 ∧ t.pwr.badAux = 0 ∧ t.ready = s.ready
          ∧ t.fld KPR.RAIL_STAT_MAIN_MV = meanOf ((mv :: s.pwr.rails.map (·.mainMv)).take 10)
          ∧ t.fld KPR.RAIL_STAT_AUX_MV = meanOf ((av :: s.pwr.rails.map (·.auxMv)).take 10)
          ∧ Safety.MemoryKept s t ∧ ∀ key, key ≠ 0x1110 → t.reg key = s.reg key))
    ∧ (s.pwr.core = true → s.pins.resetN = true → (mv < 1746 ∨ 1854 < mv) → 1 ≤ s.pwr.badMain → Safety.Ends (exec (.railCheck mv da av ca) s) (fun t =>
        t.ready = .halted ∧ t.pwr.core = false ∧ t.fld KPR.THERM_STAT_RAIL_FAULT = 1 ∧ Safety.Raised t Pg.kpr 2
          ∧ (t.kpr.flog.head?.map (fun r => (r.seq, r.kind, r.cls))) = some (s.kpr.seq, 0x02, 5)))

/-- R464 to R466: a running core's signal is remembered; a core whose period ends without one stops, its bit of WDOG_STAT.EXPIRED is set, and
records of kinds 0x05 and 0x40 are written; with WDOG_CFG.WARM the module is reset warm.
(The model's choices in it: log entry 58.)
(Completion: WATCHDOG_PROGRESS, WATCHDOG_EXPIRY.) -/
def Obligations.WatchdogSignalsAndExpiries : Prop :=
  ∀ (s : State) (core : Fin 4), s.inService = true → s.coreRuns core.val = true →
    exec (.watchdogProgress core) s
        = .next { s with kpr := { s.kpr with progress := Store.put s.kpr.progress 0 core.val s.cyc } }
    ∧ (Store.at s.kpr.progress 0 core.val + msCyc (s.fld KPR.WDOG_CFG_TIMEOUT_MS) ≤ s.cyc →
      (s.fld KPR.WDOG_CFG_WARM = 0 → Safety.Ends (exec (.watchdogExpiry core false) s) (fun t =>
        bitAt (t.fld KPR.WDOG_STAT_EXPIRED) core.val = true ∧ t.ready = s.ready ∧ Safety.MemoryKept s t
          ∧ (t.kpr.flog.take 2).map (fun r => (r.seq, r.kind, r.cls))
              = [((s.kpr.seq + 1) % 2 ^ 32, 0x40, 7), (s.kpr.seq, 0x05, 7)]))
      ∧ (s.fld KPR.WDOG_CFG_WARM = 1 → Safety.Ends (exec (.watchdogExpiry core false) s) (fun t =>
        t.ready = .cold ∧ t.hbm = [] ∧ t.gallery = [] ∧ t.fld KPR.RESET_STAT_BY_WDOG = 1)))

/-! ### Bring-up and trust (R54 to R89) -/

/-- R54, R66 to R70: the boot ROM opens the staging area, empty; a staging write by the path that owns it, or finds it free, stores its bytes below
24 MiB and takes the area; GO latches IMG_LEN, counts in BOOTS and leads to VERIFY. HIF's registers return to reset with each move of READY (R124).
(The staging area holds no uncorrectable word.)
(The model's choices in it: log entry 50.)
(Completion: BOOT_ROM_READY, STAGE_WRITE_BAR2, STAGE_DATA_WRITE, BOOT_GO.) -/
def Obligations.StagingStoresAndGoVerifies : Prop :=
  ∀ s : State,
    (s.pwr.core = true → s.ready = .cold → s.pwr.coldAt = none → Safety.Ends (exec .bootRomReady s) (fun t =>
      t.ready = .waitImage ∧ t.fld BOOT.STAT_SRC = 0 ∧ t.fld BOOT.STAT_STEP = 0 ∧ t.fld BOOT.STAT_RESULT = 0
        ∧ (∀ a, Memory.read1 t.gallery a = if Config.stagingBase ≤ a ∧ a < Config.stagingBase + Config.stagingBytes then 0
            else Memory.read1 s.gallery a)
        ∧ t.hbm = s.hbm ∧ t.host = s.host ∧ t.otp = s.otp ∧ Safety.HifReset s t [0x2050, 0x30D8]))
    ∧ (s.badWords = [] → s.ready = .waitImage ∨ s.ready = .quarantine → ∀ (offset : BitVec 28) (bytes : List Byte),
      s.reaches .pcie = true → s.pwr.core = true → s.fld BOOT.STAT_SRC = 0 ∨ s.fld BOOT.STAT_SRC = 1 →
      offset.toNat < Config.stagingBytes → Safety.Ends (exec (.stageWriteBar2 offset bytes) s) (fun t =>
        t.fld BOOT.STAT_SRC = 1 ∧ t.ready = s.ready
          ∧ Safety.Stored s.gallery t.gallery (Config.stagingBase + offset.toNat) (bytes.take (Config.stagingBytes - offset.toNat))
          ∧ t.hbm = s.hbm ∧ t.host = s.host ∧ t.otp = s.otp ∧ Safety.RegsKept s t [0x2050]))
    ∧ (s.badWords = [] → s.ready = .waitImage ∨ s.ready = .quarantine → ∀ (path : Path) (data : Reg), Safety.Open path 0x2060 s →
      s.fld BOOT.STAT_SRC = 0 ∨ s.fld BOOT.STAT_SRC = (if path = .uasyn then 2 else 1) → Safety.Ends (exec (.stageDataWrite path data) s) (fun t =>
        t.fld BOOT.STAT_SRC = (if path = .uasyn then 2 else 1)
          ∧ t.fld BOOT.STAGE_ADDR_ADDR = (s.fld BOOT.STAGE_ADDR_ADDR + 6) % 2 ^ 25
          ∧ Safety.Stored s.gallery t.gallery (Config.stagingBase + s.fld BOOT.STAGE_ADDR_ADDR)
              ((leBytes 6 data.toNat).take (Config.stagingBytes - s.fld BOOT.STAGE_ADDR_ADDR))
          ∧ t.hbm = s.hbm ∧ t.host = s.host ∧ t.otp = s.otp ∧ Safety.RegsKept s t [0x2050, 0x2058]))
    ∧ (s.ready = .waitImage ∨ s.ready = .quarantine → ∀ path, Safety.Open path 0x2048 s → s.fld BOOT.IMG_LEN_LEN ≠ 0 →
      Safety.Ends (exec (.bootGo path) s) (fun t =>
        t.ready = .verify ∧ t.boot.latched = s.fld BOOT.IMG_LEN_LEN ∧ t.fld BOOT.STAT_BOOTS = (s.fld BOOT.STAT_BOOTS + 1) % 65536
          ∧ Safety.MemoryKept s t ∧ Safety.HifReset s t [0x2050]))

/-- R72 to R74: what verification finds decides where READY goes: a good image to INIT; a format error to WAIT_IMAGE with BOOT event 0, or
back to QUARANTINE when it came from there; any other failure to QUARANTINE with BOOT event 1. A failure writes a record of kind 0x06 and
frees the staging area; nothing in memory changes. R124: HIF's registers return to reset with the move of READY.
(Completion: VERIFY_DONE.) -/
def Obligations.VerificationDecidesReady : Prop :=
  ∀ (s : State) (us : Nat), s.ready = .verify →
    Safety.Ends (exec (.verifyDone us) s) (fun t =>
      t.fld BOOT.STAT_RESULT = (verifyImage s.staged s.boot.latched s).1 ∧ t.fld BOOT.STAT_STEP = (verifyImage s.staged s.boot.latched s).2.1
        ∧ t.fld BOOT.STAT_OWNER_CHECKED = b2n (verifyImage s.staged s.boot.latched s).2.2 ∧ t.fld BOOT.LAST_TIME_VERIFY_US = us % 2 ^ 24
        ∧ Safety.MemoryKept s t ∧ Safety.HifReset s t [0x2020, 0x2050, 0x2068, 0x1060]
        ∧ (t.fld BOOT.STAT_RESULT = 1 → t.ready = .init ∧ t.kpr = s.kpr ∧ t.fld BOOT.STAT_SRC = s.fld BOOT.STAT_SRC)
        ∧ (t.fld BOOT.STAT_RESULT ≠ 1 → t.fld BOOT.STAT_SRC = 0 ∧ t.boot = {}
            ∧ t.kpr.flog.head?.map (fun r => (r.seq, r.kind)) = some (s.kpr.seq, 0x06))
        ∧ (t.fld BOOT.STAT_RESULT = 2 → s.boot.fromQuarantine = false → t.ready = .waitImage ∧ Safety.Raised t Pg.boot 0)
        ∧ (t.fld BOOT.STAT_RESULT = 2 → s.boot.fromQuarantine = true → t.ready = .quarantine ∧ t.reg 0x2020 = s.reg 0x2020)
        ∧ (3 ≤ t.fld BOOT.STAT_RESULT → t.ready = .quarantine ∧ Safety.Raised t Pg.boot 1))

/-- R75 to R77, R425: INIT that completes leads to service: HBM reads zero, the control partition holds the image's sections and all else of
the Gallery zero, the microcode stores and TMB's firmware theirs, the measurement begins at zero, no Span change is pending. A step that fails
or exceeds its budget leads to HALTED with RESULT 8 and its STEP, BOOT event 2 and a record of kind 0x07.
(The model's choices in it: log entry 51.)
(Completion: INIT_DONE, INIT_STEP_TIMEOUT.) -/
def Obligations.InitServesOrHalts : Prop :=
  ∀ s : State, s.ready = .init →
    (∀ (us trainUs repairs : Nat) (defaults : List (Nat × Reg)),
      Safety.Ends (exec (.initDone us trainUs repairs defaults none) s) (fun t =>
        t.inService = true ∧ t.hbm = [] ∧ t.host = s.host ∧ t.otp = s.otp ∧ t.span = {} ∧ t.kpr.flog = s.kpr.flog
          ∧ t.gallery = loadControl s.staged ((s.boot.image.map Image.sections).getD [])
          ∧ t.engineCode = loadEngines s.staged ((s.boot.image.map Image.sections).getD [])
          ∧ t.timeCode = loadTime s.staged ((s.boot.image.map Image.sections).getD [])
          ∧ t.sec.measured = List.replicate 32 0 ∧ t.sec.count = 0))
    ∧ (∀ (us trainUs repairs : Nat) (defaults : List (Nat × Reg)) (f : InitFail), f.step < 16 →
      Safety.Ends (exec (.initDone us trainUs repairs defaults (some f)) s) (fun t =>
        t.ready = .halted ∧ t.fld BOOT.STAT_RESULT = 8 ∧ t.fld BOOT.STAT_STEP = f.step ∧ Safety.Raised t Pg.boot 2
          ∧ t.kpr.flog.head?.map (fun r => (r.seq, r.kind, r.cls)) = some (s.kpr.seq, 0x07, 7)
          ∧ (f.step = 2 → t.fld (HBM.TRAIN_RESULT f.stack.val) = 2 ∧ t.fld (HBM.TRAIN_FAIL_CH f.stack.val) = f.channel.val)
          ∧ t.hbm = (if 3 ≤ f.step then [] else s.hbm) ∧ (f.step < 4 → t.gallery = s.gallery) ∧ t.host = s.host ∧ t.otp = s.otp))
    ∧ (∀ (stop : InitStop) (us : Nat), Safety.Ends (exec (.initStepTimeout stop us) s) (fun t =>
        t.ready = .halted ∧ t.fld BOOT.STAT_RESULT = 8 ∧ t.fld BOOT.STAT_STEP = stop.step.val + 1 ∧ Safety.Raised t Pg.boot 2
          ∧ t.kpr.flog.head?.map (fun r => (r.seq, r.kind, r.cls)) = some (s.kpr.seq, 0x07, 7)
          ∧ (stop.step.val = 1 → t.fld (HBM.TRAIN_RESULT stop.stack.val) = 2 ∧ t.fld (HBM.TRAIN_FAIL_CH stop.stack.val) = stop.channel.val)
          ∧ t.hbm = (if 2 ≤ stop.step.val then [] else s.hbm) ∧ (stop.step.val < 3 → t.gallery = s.gallery)
          ∧ t.host = s.host ∧ t.otp = s.otp))

/-- R82 to R84: a fuse programming is accepted while none runs: a rollback advance in service, an owner programming with its CONFIRM where no
owner stands; when every bit has taken its 100 µs the fuses hold the bits and BUSY clears. Nothing but FUSE_STAT changes among the
registers.
(The model's choices in it: log entries 35, 52.)
(Completion: RB_COMMIT, OWNER_PROG, FUSE_PROG_DONE.) -/
def Obligations.FuseProgrammingsRun : Prop :=
  ∀ s : State,
    (∀ path, Safety.Open path 0x30D0 s → s.sec.fuse = none → s.inService = true → Safety.Ends (exec (.rbCommit path) s) (fun t =>
      t.sec.fuse = (if s.rollbackBits = [] then none else some ⟨s.rollbackBits, s.cyc⟩)
        ∧ (s.rollbackBits ≠ [] → t.fld SEC.FUSE_STAT_BUSY = 1) ∧ Safety.MemoryKept s t ∧ Safety.RegsKept s t [0x30D8] ∧ t.ready = s.ready))
    ∧ (∀ path, Safety.Open path 0x30D0 s → s.sec.fuse = none → s.inService = true → s.ownerEnable = false → s.ownerDamaged = false →
      Safety.Ends (exec (.ownerProg path 0xA55C) s) (fun t =>
        t.sec.fuse = some ⟨s.ownerBits, s.cyc⟩ ∧ t.fld SEC.FUSE_STAT_BUSY = 1 ∧ Safety.MemoryKept s t ∧ Safety.RegsKept s t [0x30D8]
          ∧ t.ready = s.ready))
    ∧ (∀ j, s.sec.fuse = some j → j.start + usCyc 100 * j.bits.length ≤ s.cyc → Safety.Ends (exec .fuseProgDone s) (fun t =>
      t.sec.fuse = none ∧ t.otp = j.bits.foldl blowBit s.otp ∧ t.fld SEC.FUSE_STAT_BUSY = 0 ∧ t.hbm = s.hbm ∧ t.gallery = s.gallery
        ∧ t.host = s.host ∧ Safety.RegsKept s t [0x30D8]))

/-- R87 to R89, R81: GO latches the nonce, the time and the measurement; the report that follows holds the 256 bytes of R88 and their
signature by the identity key, with a salt of 32 bytes, and counts in GEN; ATT_DATA and OTP_DATA answer the word at their index and advance
it, OTP words from 320 on reading zero.
(Completion: ATT_GO, ATT_REPORT_DONE, ATT_DATA_READ, OTP_DATA_READ.) -/
def Obligations.AttestationAndFuseReads : Prop :=
  ∀ s : State,
    (∀ path, Safety.Open path 0x30E0 s → s.inService = true → s.sec.job = none → Safety.Ends (exec (.attGo path) s) (fun t =>
      t.sec.job = some ⟨((List.range 8).map (fun i => leBytes 4 (s.fld (SEC.ATT_NONCE_BYTES i)))).flatten, secOf s.ctr, nsOf s.ctr,
          s.sec.measured, s.sec.count⟩
        ∧ t.fld SEC.ATT_STAT_VALID = 0 ∧ t.fld SEC.ATT_STAT_BUSY = 1 ∧ Safety.MemoryKept s t ∧ Safety.RegsKept s t [0x30E8]))
    ∧ (∀ j, s.sec.job = some j → s.inService = true → Safety.Ends (exec .attReportDone s) (fun t =>
      t.sec.job = none ∧ t.fld SEC.ATT_STAT_VALID = 1 ∧ t.fld SEC.ATT_STAT_BUSY = 0
        ∧ t.fld SEC.ATT_STAT_GEN = (s.fld SEC.ATT_STAT_GEN + 1) % 256
        ∧ (∃ salt : List Byte, salt.length = 32
            ∧ t.sec.report = s.reportBody j ++ rsaSign s.idModulus s.idPrivate (sha256 (s.reportBody j)) salt)
        ∧ Safety.MemoryKept s t ∧ Safety.RegsKept s t [0x30E8]))
    ∧ (∀ path, Safety.OpenRead path 0x30F8 s → s.fld SEC.ATT_STAT_VALID = 1 → s.fld SEC.ATT_INDEX_INDEX < 160 →
      Safety.Ends (exec (.attDataRead path) s) (fun t =>
        t.replies.data = BitVec.ofNat 48 (leNat ((s.sec.report.drop (4 * s.fld SEC.ATT_INDEX_INDEX)).take 4))
          ∧ t.fld SEC.ATT_INDEX_INDEX = s.fld SEC.ATT_INDEX_INDEX + 1 ∧ Safety.MemoryKept s t ∧ Safety.RegsKept s t [0x30F0]))
    ∧ (∀ path, Safety.OpenRead path 0x3048 s → Safety.Ends (exec (.otpDataRead path) s) (fun t =>
      t.replies.data = (if 320 ≤ s.fld SEC.OTP_INDEX_INDEX then 0 else BitVec.ofNat 48 (s.otpWord (s.fld SEC.OTP_INDEX_INDEX)))
        ∧ (320 ≤ s.fld SEC.OTP_INDEX_INDEX → t.replies.rsw = some (t.rsw .permission) ∧ t.fld KPR.FRZ_STAT_FROZEN = s.fld KPR.FRZ_STAT_FROZEN)
        ∧ t.fld SEC.OTP_INDEX_INDEX = (s.fld SEC.OTP_INDEX_INDEX + 1) % 512 ∧ Safety.MemoryKept s t ∧ Safety.RegsKept s t [0x3040]))

/-! ### Registers and the paths to them (R90 to R116) -/

/-- R7, R99, R100, R113: a write that reaches a register of a page without rules of its own gives every RW field the data's bits, clears W1C
bits by ones and leaves the rest; RWS fields take their bits in the shadow copy alone. No other register and no memory changes. R134, R138: one
that the Concourse carries and whose target has not responded within 2 µs leaves the register as it was or as written, over BAR0 with CODE
BUSY in PG_STAT.
(Completion: REGISTER_WRITE.) -/
def Obligations.RegisterWriteStoresItsFields : Prop :=
  ∀ (s : State) (path : Path) (addr : BitVec 24) (data : BitVec 64) (be : BitVec 8) (p : PageInfo) (n : Nat) (r : RegDesc) (k : Nat),
    Safety.Open path addr.toNat s → be.toNat % 64 = 63 → registerAt addr.toNat = some (p, n, r, k) → 0x40 ≤ addr.toNat % 0x1000 →
    p.kind ∈ [PageKind.tsu, .clk, .ref, .flow, .arcc, .seal, .hbm, .gal, .pdm, .mac, .sds] →
    r.fields.any (fun f => f.acc ≠ .ro) = true → r.accepts (BitVec.ofNat 48 data.toNat) = true →
    (r.fields.any (fun f => f.acc = .rws) = true → s.fld (PG_SHADOW_BUSY (p.base n)) = 0) →
    (∀ late : Bool, late = false ∨ path = .uasyn ∨ s.inService = false → Safety.Ends (exec (.registerWrite path addr data 8 be late) s) (fun t =>
      t.reg (s.keyAt addr.toNat r n) = r.written (s.reg (s.keyAt addr.toNat r n)) (BitVec.ofNat 48 data.toNat)
        ∧ (r.fields.any (fun f => f.acc = .rws) = true →
            t.shadowReg (s.keyAt addr.toNat r n) = r.armed (s.shadowReg (s.keyAt addr.toNat r n)) (BitVec.ofNat 48 data.toNat))
        ∧ Safety.RegsKept s t [s.keyAt addr.toNat r n]
        ∧ (∀ key, key ≠ s.keyAt addr.toNat r n → t.shadowReg key = s.shadowReg key)
        ∧ t = { s with regs := t.regs, shadow := t.shadow, attnGen := t.attnGen, replies := t.replies, free := t.free, sec := t.sec }))
    ∧ (path ≠ .uasyn → s.inService = true → Safety.Ends (exec (.registerWrite path addr data 8 be true) s) (fun t =>
      (t.reg (s.keyAt addr.toNat r n) = s.reg (s.keyAt addr.toNat r n)
          ∨ t.reg (s.keyAt addr.toNat r n) = r.written (s.reg (s.keyAt addr.toNat r n)) (BitVec.ofNat 48 data.toNat))
        ∧ (path = .pcie → t.fld (PG_STAT_WR_CODE (p.base n)) = 5 ∧ t.fld (PG_STAT_WR_OFFSET (p.base n)) = addr.toNat % 0x1000 / 8)
        ∧ Safety.RegsKept s t [s.keyAt addr.toNat r n, (PG_STAT_WR_CODE (p.base n)).key]
        ∧ t = { s with regs := t.regs, shadow := t.shadow, attnGen := t.attnGen, replies := t.replies, free := t.free, sec := t.sec }))

/-- R109, R111: a write of PG_EVENT clears the bits that it names but those whose event occurs in the same cycle; every other bit and every
other register stays.
(Completion: EVENT_CLEAR.) -/
def Obligations.EventClearClearsNamedBits : Prop :=
  ∀ (s : State) (path : Path) (page : Fin 202) (bits recurs : BitVec 16), Safety.Open path (baseOfIndex page.val + 0x20) s →
    Safety.Ends (exec (.eventClear path page bits recurs) s) (fun t =>
      (∀ k, k < 16 → bitAt (t.fld (PG_EVENT_EVENTS (baseOfIndex page.val))) k
          = (bitAt (s.fld (PG_EVENT_EVENTS (baseOfIndex page.val))) k && (!bits.getLsbD k || recurs.getLsbD k)))
        ∧ t = { s with regs := t.regs, attnGen := t.attnGen, replies := t.replies, free := t.free, sec := t.sec }
        ∧ Safety.RegsKept s t [baseOfIndex page.val + 0x20])

/-- R112: SOFT_RESET of a page that holds no count, no unit and no master returns its registers and shadow copies to reset and leaves every
other page as it was; DIR has nothing to reset.
(The model's choices in it: log entries 23, 60.)
(Completion: SOFT_RESET.) -/
def Obligations.SoftResetReturnsPageToReset : Prop :=
  ∀ (s : State) (path : Path) (page : Fin 202) (p : PageInfo) (n : Nat), pageByIndex page.val = some (p, n) → s.serves p n = false →
    Store.wf resetValue s.regs = true → Safety.Open path (p.base n + 0x10) s →
    (p.kind = .dir → Safety.Ends (exec (.softReset path page) s) (fun t => t.regs = s.regs ∧ Safety.MemoryKept s t))
    ∧ (p.kind ∈ [PageKind.pmc, .tsu, .pdm] → Safety.Ends (exec (.softReset path page) s) (fun t =>
      (∀ key, t.reg key = if baseOf (key % 0x1000000) = p.base n then resetValue key else s.reg key)
        ∧ (∀ key, t.shadowReg key = if baseOf (key % 0x1000000) = p.base n then resetValue key else s.shadowReg key)
        ∧ Safety.MemoryKept s t ∧ t.ready = s.ready ∧ t.masters = s.masters))

/-- R66, R95, R96, R134: BAR2 reads the staging area before READY and the HBM window from READY on; BAR4 reads the counters; a write to BAR4
is dropped and counted. A read changes no memory. A completion whose TLP carries a poisoned beat has EP set (R360). A read of HBM waits while a
refresh owed or a second read goes ahead of it (R360, R416): the clause is of one that does not.
(The model's choices in it: log entry 12.)
(Completion: BAR2_READ, BAR4_READ, BAR4_WRITE.) -/
def Obligations.BulkReadsAndDroppedWrites : Prop :=
  ∀ s : State, s.reaches .pcie = true →
    (∀ (offset : BitVec 28) (len : Nat) (resp : Resp), s.inService = false → s.pwr.core = true →
      s.ready = .waitImage ∨ s.ready = .verify ∨ s.ready = .quarantine → Safety.Ends (exec (.bar2Read offset len resp) s) (fun t =>
        t.replies.bulk = s.stagedBytes offset.toNat len ∧ (∀ e ∈ t.replies.ep, e = false) ∧ t = { s with replies := t.replies }))
    ∧ (∀ (offset : BitVec 28) (len : Nat), s.inService = true → s.inReset 28 = false →
      s.permits 28 false (.hbm (s.windowAddr offset.toNat)) = true → s.readable (s.windowAddr offset.toNat) len = true →
      Safety.Ends (exec (.bar2Read offset len .okay) s) (fun t =>
        t.replies.bulk = (s.hbmRead (s.windowAddr offset.toNat) len).1
          ∧ t.replies.ep = epOf s.mps (s.windowAddr offset.toNat) len (s.windowAddr offset.toNat) (s.hbmRead (s.windowAddr offset.toNat) len).2.1
          ∧ Safety.MemoryKept s t))
    ∧ (∀ (offset : BitVec 20) (len : Nat), Safety.Ends (exec (.bar4Read offset len) s) (fun t =>
      t.replies.bulk = s.bar4Bytes offset.toNat len ∧ t = { s with replies := t.replies }))
    ∧ (∀ (offset : BitVec 20) (bytes : List Byte), s.pwr.core = true → s.inService = true →
      Safety.Ends (exec (.bar4Write offset bytes) s) (fun t =>
        t.fld HIF.PCIE_STAT_BAR4_WR = min 65535 (s.fld HIF.PCIE_STAT_BAR4_WR + 1) ∧ Safety.OnlyRegs s t [0x4088]))

/-- R95, R421: a write of the HBM window that the masks permit, at ports that accept writes (R418, R421), is queued for HBM, and no other memory
changes; one within a beat is what every later read of those bytes returns, and no other byte of HBM reads differently.
(The model's choices in it: log entry 12.)
(Completion: BAR2_WRITE.) -/
def Obligations.Bar2WriteIsReadBack : Prop :=
  ∀ (s : State) (offset : BitVec 28) (bytes : List Byte), s.reaches .pcie = true → s.inService = true → s.frozen 28 = false →
    s.inReset 28 = false → s.permits 28 true (.hbm (s.windowAddr offset.toNat)) = true →
    s.writable (s.windowAddr offset.toNat) bytes.length = true → Safety.Ends (exec (.bar2Write offset bytes .okay) s) (fun t =>
      t.pcs = (s.hbmWrite (s.windowAddr offset.toNat) bytes).pcs ∧ t.hbm = (s.hbmWrite (s.windowAddr offset.toNat) bytes).hbm
        ∧ t.poison = (s.hbmWrite (s.windowAddr offset.toNat) bytes).poison
        ∧ t.gallery = s.gallery ∧ t.host = s.host ∧ t.otp = s.otp ∧ t.pending = s.pending
        ∧ (s.windowAddr offset.toNat % 32 + bytes.length ≤ 32 →
            ∀ a, t.hbmBytes a 1 = if s.windowAddr offset.toNat ≤ a ∧ a < s.windowAddr offset.toNat + bytes.length
              then [nth bytes (a - s.windowAddr offset.toNat) 0] else s.hbmBytes a 1))

/-- R99: a BAR0 read that is neither a whole register nor its upper half nor its lower half returns zero without a status word and counts in
BAD_SIZE; in service, off KPR's page, the default target answers it as well (R130, R137), unless the port is in reset (R138). One of half a register
returns that half, `late` being whether the Concourse has no response for it within 2 µs (R138: then zero).
(The model's choices in it: log entries 14, 15.)
(Completion: BAR0_BAD_SIZE_READ.) -/
def Obligations.BadSizeReadsAreCounted : Prop :=
  ∀ (s : State) (addr : BitVec 24) (size : Nat) (late : Bool), s.reaches .pcie = true →
    (¬(size = 8 ∧ addr.toNat % 8 = 0) → ¬(size = 4 ∧ addr.toNat % 4 = 0) → s.pwr.core = true →
      Safety.Ends (exec (.bar0BadSizeRead addr size late) s) (fun t =>
        t.replies.data = 0 ∧ t.replies.rsw = none ∧ t.fld HIF.PCIE_STAT_BAD_SIZE = min 65535 (s.fld HIF.PCIE_STAT_BAD_SIZE + 1)
          ∧ Safety.RegsKept s t [0x4088, 0x5020, 0x5040, 0x5048, 0x5838] ∧ Safety.MemoryKept s t
          ∧ (s.inService = false ∨ baseOf addr.toNat = Pg.kpr → Safety.RegsKept s t [0x4088])
          ∧ (s.inService = true → baseOf addr.toNat ≠ Pg.kpr → s.inReset 28 = false →
              t.fld FAB.DFLT_STAT_COUNT = min (2 ^ 32 - 1) (s.fld FAB.DFLT_STAT_COUNT + 1) ∧ t.fld FAB.DFLT_STAT_MASTER = 28
                ∧ t.fld FAB.DFLT_ADDR_ADDR = 0x900000000 + addr.toNat ∧ Safety.Raised t Pg.fab 0)))
    ∧ (addr.toNat % 8 = 4 → Safety.Ends (exec (.bar0BadSizeRead addr 4 late) s) (fun t =>
      t.replies.data = BitVec.ofNat 48 ((s.bar0ReadLate late (addr.toNat - 4)).2.1.toNat / 2 ^ 32)
        ∧ (late = true → s.inService = true → baseOf (addr.toNat - 4) ≠ Pg.kpr → t.replies.data = 0)))
    ∧ (addr.toNat % 8 = 0 → Safety.Ends (exec (.bar0BadSizeRead addr 4 late) s) (fun t =>
      t.replies.data = BitVec.ofNat 48 ((s.bar0ReadLate late addr.toNat).2.1.toNat % 2 ^ 32) ∧ t.replies.rsw = none
        ∧ t.replies.codes = s.replies.codes))

/-- R105 to R108, R151: on the Uasyn link a whole request with a good CRC is answered by the reply of R106; a read answers the register's data;
a write that repeats the last one applied is answered by the stored reply and has no effect; a request cut off has none; one that the
register bus does not answer is replied to with BUSY and zero data. The reply shows on MGT_SDO only while that land is driven (R49).
(The model's choices in it: log entries 16, 17.)
(Completion: UASYN_READ, UASYN_WRITE, UASYN_FRAME_ABORT, KEEPER_BRIDGE_TIMEOUT.) -/
def Obligations.UasynFramesAreAnswered : Prop :=
  ∀ s : State, s.reaches .uasyn = true →
    (∀ (frame : List Byte) (r : UasynReq), parseUasyn frame = some (r, true) → r.op = 1 → r.addr % 8 = 0 → (registerAt r.addr).isSome = true →
      baseOf r.addr = Pg.kpr ∨ s.answers (baseOf r.addr) = true ∨ s.inService = true →
      Safety.Ends (exec (.uasynRead frame) s) (fun t =>
        t.replies.data = (readReg .uasyn r.addr s).2.1
          ∧ ∃ w, t.replies.rsw = some w ∧ t.replies.uasyn = (if t.drives then uasynReply r.head w t.replies.data else [])))
    ∧ (∀ (frame : List Byte) (r : UasynReq), parseUasyn frame = some (r, true) → r.op = 2 → r.addr % 8 = 0 → s.repeated r = none →
      Safety.Ends (exec (.uasynWrite frame) s) (fun t =>
        t.regs = (s.writeAt .uasyn r.addr r.data).1.regs ∧ t.replies.data = 0
          ∧ ∃ w, t.replies.rsw = some w ∧ t.replies.uasyn = (if t.drives then uasynReply r.head w 0 else [])))
    ∧ (∀ (frame : List Byte) (r : UasynReq) (bytes : List Byte), parseUasyn frame = some (r, true) → r.op = 2 → r.addr % 8 = 0 →
      s.repeated r = some bytes → exec (.uasynWrite frame) s = .next { s with replies := { s.replies with uasyn := if s.drives then bytes else [] } })
    ∧ (∀ bits, exec (.uasynFrameAbort bits) s = .next s)
    ∧ (∀ (frame : List Byte) (r : UasynReq), parseUasyn frame = some (r, true) → r.op = 1 → r.addr % 8 = 0 → baseOf r.addr ≠ Pg.kpr →
      s.answers (baseOf r.addr) = true → (registerAt r.addr).isSome = true →
      Safety.Ends (exec (.keeperBridgeTimeout frame) s) (fun t =>
        t.replies.data = 0 ∧ t.replies.rsw = some (t.rsw .busy) ∧ t.regs = s.regs ∧ Safety.MemoryKept s t))

/-- R113 to R116: ARM of a page whose commit point lies ahead makes it BUSY; DISARM before that point withdraws it; at the point the armed
values take effect, BUSY clears and GEN counts. Of a page without checks of its own every field then reads its shadow copy's value.
(The model's choices in it: log entry 25.)
(Completion: SHADOW_ARM, SHADOW_DISARM, SHADOW_COMMIT.) -/
def Obligations.ShadowsArmDisarmAndCommit : Prop :=
  ∀ (s : State) (page : Fin 202) (p : PageInfo) (n : Nat), pageByIndex page.val = some (p, n) →
    (∀ (path : Path) (view : Bool), Safety.Open path (p.base n + 0x38) s → s.fld (PG_SHADOW_BUSY (p.base n)) = 0 →
      s.commitsAtOnce p n = false → (p.kind = .gate → s.fld (GATE.STAT_PENDING n) = 0) → Safety.Ends (exec (.shadowArm path page view) s) (fun t =>
        t.fld (PG_SHADOW_BUSY (p.base n)) = 1 ∧ t.fld (PG_SHADOW_VIEW (p.base n)) = b2n view
          ∧ t.fld (PG_SHADOW_GEN (p.base n)) = s.fld (PG_SHADOW_GEN (p.base n)) ∧ Safety.RegsKept s t [p.base n + 0x38]
          ∧ t.shadow = s.shadow ∧ Safety.MemoryKept s t))
    ∧ (∀ (path : Path) (view : Bool), Safety.Open path (p.base n + 0x38) s → s.fld (PG_SHADOW_BUSY (p.base n)) = 1 →
      Safety.Ends (exec (.shadowDisarm path page view false) s) (fun t =>
        t.fld (PG_SHADOW_BUSY (p.base n)) = 0 ∧ t.fld (PG_SHADOW_VIEW (p.base n)) = b2n view ∧ Safety.RegsKept s t [p.base n + 0x38]
          ∧ t.shadow = s.shadow ∧ Safety.MemoryKept s t))
    ∧ (s.pwr.core = true → s.fld (PG_SHADOW_BUSY (p.base n)) = 1 → s.commitPoint p n = true →
      Safety.Ends (exec (.shadowCommit page) s) (fun t =>
        t.fld (PG_SHADOW_BUSY (p.base n)) = 0
          ∧ (p.kind ∈ [PageKind.tsu, .ptp, .clk, .pdm, .tdm] →
              t.fld (PG_SHADOW_RESULT (p.base n)) = 0 ∧ t.fld (PG_SHADOW_GEN (p.base n)) = (s.fld (PG_SHADOW_GEN (p.base n)) + 1) % 65536
                ∧ t.shadow = s.shadow ∧ Safety.MemoryKept s t
                ∧ (∀ key r k, registerAt (key % 0x1000000) = some (p, n, r, k) → key ≠ p.base n + 0x38 →
                    t.reg key = viewed r true (s.reg key) (s.shadowReg key))
                ∧ Safety.PagesKept (fun g => decide (g = p.base n / 0x1000)) s t)))
/-! ### Command rings and heartbeats (R117 to R125, R285) -/

/-- R118 to R120: the next ring in round robin with a command is served: a sound descriptor goes into execution, a malformed one completes at
once, a failed fetch disables the ring and raises HIF event 0. R86: an accepted descriptor's 64 bytes extend the measurement.
(The model's choices in it: log entry 18.)
(Completion: COMMAND_FETCH.) -/
def Obligations.CommandFetchServesNextRing : Prop :=
  ∀ (s : State) (r : Nat), s.ringsRun = true → s.hif.cur = none → s.nextRing = some r →
    Safety.Ends (exec (.commandFetch none) s) (fun t =>
      t.fld (ringEntries false r) = 0 ∧ t.fld (ringPi false r) = 0 ∧ t.fld (ringCi false r) = 0
        ∧ bitAt (t.fld HIF.RING_FAULT_CQ) r = true ∧ Safety.Raised t Pg.hif 0 ∧ t.hif.cur = none ∧ t.hif.lastRing = r ∧ Safety.MemoryKept s t
        ∧ Safety.PagesKept (fun g => decide (g = 0x4)) s t)
    ∧ (∀ w : Vector (BitVec 64) 8, s.checkCommand ⟨r, s.fld (ringCi false r), w.toList, .ok⟩ = .ok →
      exec (.commandFetch (some w)) s
        = .next { s with
            hif := { s.hif with cur := some ⟨r, s.fld (ringCi false r), w.toList, .ok⟩, lastRing := r }
            sec := { s.sec with
              measured := sha256 (s.sec.measured ++ sha256 ((w.toList.map (fun x => leBytes 8 x.toNat)).flatten))
              count := (s.sec.count + 1) % 2 ^ 32 } })
    ∧ (∀ w : Vector (BitVec 64) 8, s.checkCommand ⟨r, s.fld (ringCi false r), w.toList, .ok⟩ ≠ .ok →
      Safety.Ends (exec (.commandFetch (some w)) s) (fun t =>
        t.hif.cur = none ∧ t.hif.lastRing = r
          ∧ t.fld (ringCi false r) = (s.fld (ringCi false r) + 1) % s.fld (ringEntries false r) % 65536
          ∧ t.fld (ringPi true r) = (s.fld (ringPi true r) + 1) % s.fld (ringEntries true r) % 65536
          ∧ t.hbm = s.hbm ∧ t.gallery = s.gallery ∧ Safety.PagesKept (fun g => decide (g = 0x4)) s t))

/-- R120, R121: each list and each copy completes its command: REG_WRITE_LIST leaves what its writes leave, an entry's accepted write giving the
register its value; REG_READ_LIST stores its entries' status words and data where they came from; HBM_READ stores the region's bytes in host
memory and HBM_WRITE queues the buffer's for HBM as a write of them is, where the masks permit the region and no port stalls (R416, R418, R421);
ARC_SET_SEI keeps its payload for the output it names (R285). All but a write list advance CI. A list or a copy completes as well when a target
of one of its accesses, numbered `late`, has not responded within 2 µs (R138). (Completion: REG_WRITE_LIST, REG_READ_LIST, HBM_READ, HBM_WRITE,
ARC_SET_SEI.)
(The model's choices in it: log entries 18, 19, 20.) -/
def Obligations.ListsAndCopiesComplete : Prop :=
  ∀ (s : State) (c : RingCmd), c.ring < 16 → s.fld (ringEntries true c.ring) ≠ 0 → s.fld (ringEntries false c.ring) ≠ 0 →
    let next := (c.index + 1) % s.fld (ringEntries false c.ring) % 65536
    let slot := s.ringBase true c.ring + 32 * s.fld (ringPi true c.ring)
    (∀ entries late, s.current 1 = some c → c.length = 16 * entries.length → Safety.Ends (exec (.regWriteList entries late) s) (fun t =>
      let w := (writeList entries late s).2.2
      t.hif.cur = none ∧ t = { w with regs := t.regs, hif := t.hif, host := t.host, pending := s.pending }
        ∧ Safety.RegsKept w t [(ringPi true c.ring).key, (ringCi false c.ring).key, HIF.PCIE_STAT_RPL_DROPPED.key]))
    ∧ (∀ (addr data : BitVec 64) (p : PageInfo) (n : Nat) (r : RegDesc) (k : Nat), s.current 1 = some c → c.length = 16 → addr.toNat < 2 ^ 24 →
      s.inReset 28 = false → Safety.Open .ring addr.toNat s → registerAt addr.toNat = some (p, n, r, k) → 0x40 ≤ addr.toNat % 0x1000 →
      p.kind ∈ [PageKind.tsu, .clk, .ref, .flow, .arcc, .seal, .hbm, .gal, .pdm, .mac, .sds] → r.fields.any (fun f => f.acc ≠ .ro) = true →
      r.accepts (BitVec.ofNat 48 data.toNat) = true →
      (r.fields.any (fun f => f.acc = .rws) = true → s.fld (PG_SHADOW_BUSY (p.base n)) = 0) →
      Safety.Ends (exec (.regWriteList [(addr, data)] none) s) (fun t =>
        t.hif.cur = none ∧ t.reg (s.keyAt addr.toNat r n) = r.written (s.reg (s.keyAt addr.toNat r n)) (BitVec.ofNat 48 data.toNat)
          ∧ t.fld (ringCi false c.ring) = next ∧ t.hbm = s.hbm ∧ t.gallery = s.gallery))
    ∧ (∀ addrs late, s.current 2 = some c → c.length = 8 * addrs.length → Safety.Ends (exec (.regReadList addrs late) s) (fun t =>
      t.hif.cur = none ∧ t.fld (ringCi false c.ring) = next ∧ t.hbm = s.hbm ∧ t.gallery = s.gallery
        ∧ ∀ a, (a < slot ∨ slot + 32 ≤ a) →
            Memory.read1 t.host a = if c.addr ≤ a ∧ a < c.addr + 8 * addrs.length
              then nth ((readList addrs late s).1.map (leBytes 8)).flatten (a - c.addr) 0 else Memory.read1 s.host a))
    ∧ (∀ late, s.current 3 = some c → s.inReset 28 = true ∨ s.readable (c.operand 0) (beforeLate (s.hbmReach false (c.operand 0) c.length) late) = true →
      Safety.Ends (exec (.hbmRead late) s) (fun t => t.hif.cur = none ∧ t.fld (ringCi false c.ring) = next ∧ t.hbm = s.hbm))
    ∧ (s.current 3 = some c → s.inReset 28 = false → s.hbmReach false (c.operand 0) c.length = c.length →
      s.readable (c.operand 0) c.length = true → Safety.Ends (exec (.hbmRead none) s) (fun t =>
        t.hif.cur = none ∧ t.fld (ringCi false c.ring) = next ∧ t.hbm = s.hbm
          ∧ ∀ a, (a < slot ∨ slot + 32 ≤ a) →
              Memory.read1 t.host a = if c.addr ≤ a ∧ a < c.addr + c.length then nth (s.hbmRead (c.operand 0) c.length).1 (a - c.addr) 0
                else Memory.read1 s.host a))
    ∧ (∀ bytes late, s.current 4 = some c → bytes.length = c.length → s.frozen 28 = true ∨ s.inReset 28 = true
        ∨ s.writable (c.operand 0) (beforeLate (s.hbmReach true (c.operand 0) c.length) late) = true →
      Safety.Ends (exec (.hbmWrite bytes late) s) (fun t => t.hif.cur = none ∧ t.fld (ringCi false c.ring) = next ∧ t.gallery = s.gallery))
    ∧ (∀ bytes : List Byte, s.current 4 = some c → bytes.length = c.length → s.frozen 28 = false → s.inReset 28 = false →
      s.hbmReach true (c.operand 0) c.length = c.length → s.writable (c.operand 0) c.length = true →
      Safety.Ends (exec (.hbmWrite bytes none) s) (fun t =>
        t.hif.cur = none ∧ t.fld (ringCi false c.ring) = next ∧ t.hbm = (s.hbmWrite (c.operand 0) bytes).hbm
          ∧ t.pcs = (s.hbmWrite (c.operand 0) bytes).pcs ∧ t.poison = (s.hbmWrite (c.operand 0) bytes).poison))
    ∧ (∀ payload : List Byte, s.current 0x20 = some c → payload.length = c.length → Safety.Ends (exec (.arcSetSei payload) s) (fun t =>
        t.hif.cur = none ∧ t.fld (ringCi false c.ring) = next
          ∧ (t.out c.seiOutput).seiNext = some (if bitAt (c.operand 1) 0 then [] else payload)
          ∧ (∀ o, o ≠ c.seiOutput → t.out o = s.out o) ∧ t.hbm = s.hbm ∧ t.gallery = s.gallery))

/-- R98, R125: when its period has passed a heartbeat is written, with the next sequence number, where two entries of reply ring 0 are free and
the link is up in D0; elsewhere it is missed, counted and raised.
(The model's choices in it: log entry 21.)
(Completion: HEARTBEAT.) -/
def Obligations.HeartbeatIsWrittenOrMissed : Prop :=
  ∀ (s : State) (due : Nat), s.hif.hbNext = some due → s.inService = true → s.coreRuns 0 = true → s.fld (ringEntries true 0) ≠ 0 →
    due ≤ s.cyc →
    (s.hif.d3hot = false ∧ s.hif.linkUp = true ∧ 2 ≤ s.replyFree 0 → Safety.Ends (exec .heartbeat s) (fun t =>
      t.hif.hbSeq = (s.hif.hbSeq + 1) % 2 ^ 32 ∧ t.hif.hbMissed = 0 ∧ t.hif.hbNext = some (due + s.hbPeriod)
        ∧ t.fld (ringPi true 0) = (s.fld (ringPi true 0) + 1) % s.fld (ringEntries true 0) % 65536
        ∧ Safety.RegsKept s t [0x4310] ∧ t.hbm = s.hbm ∧ t.gallery = s.gallery))
    ∧ (s.hif.d3hot = true ∨ s.hif.linkUp = false ∨ s.replyFree 0 < 2 → Safety.Ends (exec .heartbeat s) (fun t =>
      t.hif.hbMissed = min 65535 (s.hif.hbMissed + 1) ∧ t.hif.hbSeq = s.hif.hbSeq ∧ Safety.Raised t Pg.hif 1
        ∧ Safety.RegsKept s t [0x4020] ∧ Safety.MemoryKept s t))

/-! ### The Concourse (R127 to R153) -/

/-- R135, R137: an access that decodes to no target, or a target that does not respond, is counted against its master and shown: the default
target's registers and FAB event 0; a record of kind 0x10 and FAB event 3. No memory changes.
(The model's choices in it: log entries 12, 71.)
(Completion: DEFAULT_HIT, FAB_TIMEOUT.) -/
def Obligations.DefaultTargetAndTimeoutAreReported : Prop :=
  ∀ (s : State) (m : Fin 31) (addr : BitVec 36),
    (s.issues m.val = true → Safety.Ends (exec (.defaultHit m addr) s) (fun t =>
      t.fld FAB.DFLT_STAT_MASTER = m.val ∧ t.fld FAB.DFLT_STAT_COUNT = min (2 ^ 32 - 1) (s.fld FAB.DFLT_STAT_COUNT + 1)
        ∧ t.fld FAB.DFLT_ADDR_ADDR = addr.toNat ∧ t.fld (FAB.M_STAT_ERRORS m.val) = min 65535 (s.fld (FAB.M_STAT_ERRORS m.val) + 1)
        ∧ Safety.Raised t Pg.fab 0 ∧ Safety.OnlyRegs s t [0x5040, 0x5048, 0x5020, 0x5138 + 0x40 * m.val]))
    ∧ (∀ id : Fin 64, s.pwr.core = true → s.isHalted = false → Safety.Ends (exec (.fabTimeout m id addr) s) (fun t =>
      t.fld (FAB.M_STAT_ERRORS m.val) = min 65535 (s.fld (FAB.M_STAT_ERRORS m.val) + 1) ∧ Safety.Raised t Pg.fab 3
        ∧ t.kpr.flog.head?.map (fun r => (r.seq, r.kind, r.cls, r.a.toNat, r.b.toNat))
            = some (s.kpr.seq, 0x10, 4, id.val * 256 + m.val, addr.toNat)
        ∧ Safety.MemoryKept s t ∧ Safety.RegsKept s t [0x1060, 0x5020, 0x5138 + 0x40 * m.val]))

/-- R140, R142, R143: from READY on, a request that decodes and lies outside its master's masks freezes the master (the PCIe port: a write) and
is recorded in VIOL_STAT and VIOL_ADDR; the freeze writes a record of kind 0x11.
(The model's choices in it: log entry 53.)
(Completion: MASTER_VIOLATION.) -/
def Obligations.ViolationFreezesTheMaster : Prop :=
  ∀ (s : State) (m : Fin 31) (kind : ViolKind) (write : Bool) (addr : BitVec 36), s.inService = true →
    Safety.touches kind (fabTarget addr.toNat) = true →
    s.permits m.val write (fabTarget addr.toNat) = false → s.frozen m.val = false → (s.master m.val).draining = false →
    (m.val = 28 → write = true) →
    Safety.Ends (exec (.masterViolation m kind write addr) s) (fun t =>
      t.fld KPR.FRZ_STAT_FROZEN = orBit (s.fld KPR.FRZ_STAT_FROZEN) m.val ∧ t.fld FAB.VIOL_ADDR_ADDR = addr.toNat
        ∧ t.fld FAB.VIOL_STAT_MASTER = m.val ∧ t.fld FAB.VIOL_STAT_WRITE = b2n write
        ∧ t.fld FAB.VIOL_STAT_COUNT = min (2 ^ 32 - 1) (s.fld FAB.VIOL_STAT_COUNT + 1)
        ∧ (m.val ≠ 28 → (t.master m.val).draining = true) ∧ (∀ k, k ≠ m.val → t.master k = s.master k)
        ∧ t.hbm = s.hbm ∧ t.gallery = s.gallery ∧ t.host = s.host)

/-- R146, R147, R152: the end of a drain leaves its master idle, a SOFT_RESET done, a released master not frozen; THAW releases a frozen
master at once, or with RESET after a drain.
(The model's choices in it: log entry 53.)
(Completion: DRAIN_DONE, THAW.) -/
def Obligations.DrainsEndAndThawsRelease : Prop :=
  ∀ s : State,
    (∀ m : Fin 31, (s.master m.val).draining = true → Safety.Ends (exec (.drainDone m) s) (fun t =>
      t.master m.val = {} ∧ (∀ k, k ≠ m.val → t.master k = s.master k)
        ∧ t.fld (FAB.M_STAT_ERRORS m.val) = min 65535 (s.fld (FAB.M_STAT_ERRORS m.val) + (s.master m.val).outstanding)
        ∧ ((s.master m.val).release = true → (s.master m.val).freezeAt = false →
            t.fld KPR.FRZ_STAT_FROZEN = clearBit (s.fld KPR.FRZ_STAT_FROZEN) m.val)
        ∧ ((s.master m.val).release = false → (s.master m.val).freezeAt = false →
            t.fld KPR.FRZ_STAT_FROZEN = s.fld KPR.FRZ_STAT_FROZEN
              ∧ Safety.RegsKept s t ((0x5138 + 0x40 * m.val) :: (ownedPages m.val).map (· + 0x10)))
        ∧ t.hbm = s.hbm ∧ t.gallery = s.gallery ∧ t.host = s.host))
    ∧ (∀ (path : Path) (m : Fin 31), Safety.Open path 0x1120 s → s.frozen m.val = true → (s.master m.val).draining = false →
      Safety.Ends (exec (.thaw path ⟨m.val, by omega⟩ false) s) (fun t =>
        t.fld KPR.FRZ_STAT_FROZEN = clearBit (s.fld KPR.FRZ_STAT_FROZEN) m.val ∧ t.masters = s.masters ∧ Safety.MemoryKept s t)
      ∧ (m.val ≠ 28 → Safety.Ends (exec (.thaw path ⟨m.val, by omega⟩ true) s) (fun t =>
        (∃ n, n ≤ 64 ∧ t.master m.val = { draining := true, byReset := true, release := true, outstanding := n })
          ∧ t.regs = s.regs ∧ Safety.MemoryKept s t)))

/-- R98, R192, R193: the link trains to L0 at 2.5 GT/s and shows its rate and width; a link in L0 changes them through Recovery; a hot reset takes
it down and returns the ring registers and configuration space to reset, and LTSSM no longer reads L0; D3hot and the return to D0 change nothing but
whether rings are served, and in COLD, where a configuration request is retried (R57), not that.
(The model's choices in it: log entry 74.)
(Completion: PCIE_LINK_UP, PCIE_HOT_RESET, PCIE_D3HOT, PCIE_D0_RETURN.) -/
def Obligations.PcieLinkComesAndGoes : Prop :=
  ∀ s : State,
    (∀ width, s.pwr.aux = true → s.pins.perstN = true → s.hif.lanesOn = true → s.hif.linkUp = false →
      width = 1 ∨ width = 2 ∨ width = 4 ∨ width = 8 → Safety.Ends (exec (.pcieLinkUp 1 width) s) (fun t =>
        t.hif.linkUp = true ∧ t.hif.d3hot = false ∧ t.fld PCIE.LINK_LTSSM = 3 ∧ t.fld PCIE.LINK_RATE = 1 ∧ t.fld PCIE.LINK_WIDTH = width
          ∧ (∀ path, bitsOf (t.readData path 0x108040) 8 8 = 3)
          ∧ Safety.MemoryKept s t ∧ t.ready = s.ready ∧ Safety.PagesKept (fun g => decide (g = 0x108 ∨ 0x120 ≤ g ∧ g < 0x128)) s t))
    ∧ (∀ rate width, s.pwr.aux = true → s.pins.perstN = true → s.hif.lanesOn = true → s.hif.linkUp = true → 1 ≤ rate → rate ≤ 5 →
      width = 1 ∨ width = 2 ∨ width = 4 ∨ width = 8 → Safety.Ends (exec (.pcieLinkUp rate width) s) (fun t =>
        t.hif = s.hif ∧ t.fld PCIE.LINK_LTSSM = 3 ∧ t.fld PCIE.LINK_RATE = rate ∧ t.fld PCIE.LINK_WIDTH = width
          ∧ (s.fld PCIE.LINK_RECOVERIES < 65535 → s.fld PCIE.LINK_RECOVERIES < t.fld PCIE.LINK_RECOVERIES)
          ∧ Safety.MemoryKept s t ∧ Safety.PagesKept (fun g => decide (g = 0x108 ∨ 0x120 ≤ g ∧ g < 0x128)) s t))
    ∧ (s.pwr.aux = true → s.hif.linkUp = true → Safety.Ends (exec .pcieHotReset s) (fun t =>
      t.hif.linkUp = false ∧ t.pci = {} ∧ (∀ path, bitsOf (t.readData path 0x108040) 8 8 ≠ 3) ∧ t.fld PCIE.LINK_RATE = 0 ∧ (∀ key, isRingKey key = true → t.reg key = resetValue key)
        ∧ Safety.MemoryKept s t ∧ t.ready = s.ready
        ∧ Safety.PagesKept (fun g => decide (g = 0x4 ∨ g = 0x108 ∨ 0x120 ≤ g ∧ g < 0x128)) s t))
    ∧ (s.hif.linkUp = true → s.ready ≠ .cold → exec .pcieD3hot s = .next { s with hif := { s.hif with d3hot := true } }
      ∧ exec .pcieD0Return s = .next { s with hif := { s.hif with d3hot := false } })
    ∧ (s.hif.linkUp = false ∨ s.ready = .cold → exec .pcieD3hot s = .next s ∧ exec .pcieD0Return s = .next s)

/-! ### The time base (R154 to R184) -/

/-- R47, R158, R162: counting on to the next second of the counter, at an increment within its range, PPS_OUT rises, on its land where that is
driven (R49), and the seconds count by one. READY stays, unless DEGRADED follows it in the first of those cycles (R467).
(The model's choices in it: log entry 2.)
(Completion: PTP_SECOND.) -/
def Obligations.NextSecondRaisesPps : Prop :=
  ∀ s : State, s.pwr.aux = true → 10732049531 ≤ s.fld PTP.INCR_INCR → s.fld PTP.INCR_INCR ≤ 10742786949 → s.ctr < 2 ^ 48 * Config.unitsPerSec →
    Safety.Ends (exec .ptpSecond s) (fun t =>
      t.cyc = s.cyc + s.cyclesToSecond ∧ secOf t.ctr = (secOf s.ctr + 1) % 2 ^ 48 ∧ t.ctr % Config.unitsPerSec < s.fld PTP.INCR_INCR
        ∧ t.pins.ppsOut = true ∧ t.pins.ppsAt = t.cyc ∧ t.ppsLand = (if s.drives then some true else none) ∧ t.pwr = s.pwr
        ∧ (t.ready = s.ready ∨ s.ready = .ready ∧ t.ready = .degraded) ∧ t.otp = s.otp)

/-- R157: the loss of a PLL halts the module, raises KPR event 4 and writes a record of kind 0x04; after the keeper PLL's loss the time is not
valid. Memories keep their contents.
(Completion: PLL_LOSS.) -/
def Obligations.PllLossHalts : Prop :=
  ∀ (s : State) (root keeper : Bool), s.pwr.aux = true → keeper = true ∨ (root = true ∧ s.pwr.core = true) →
    Safety.Ends (exec (.pllLoss root keeper) s) (fun t =>
      t.ready = .halted ∧ Safety.Raised t Pg.kpr 4 ∧ t.valid = (s.valid && !keeper)
        ∧ t.kpr.flog.head?.map (fun r => (r.seq, r.kind, r.cls)) = some (s.kpr.seq, 0x04, 7)
        ∧ t.clk.rootPll = (s.clk.rootPll && !root) ∧ t.clk.keeperPll = (s.clk.keeperPll && !keeper)
        ∧ Safety.MemoryKept s t ∧ t.ctr = s.ctr
        ∧ ∀ key, keyPage key ≠ 0x4 → key ≠ 0x1020 → key ≠ 0x1060 → t.reg key = s.reg key)

/-- R165, R169 to R173: an offset sample that the active port hears is reported, and in SERVO mode outside a path-step hold refused beyond the
jump threshold (counted, HOLD, INCR at the integrator's value), else applied to the integrator and INCR; in the other modes nothing but its
report changes, and one of another port, domain or profile, or that spans a host step, has no effect. An applied sample may count in a
performance counter (PMC's page, R449).
(The model's choices in it: log entry 11.)
(Completion: OFFSET_SAMPLE.) -/
def Obligations.OffsetSampleIsReportedAndServed : Prop :=
  ∀ (s : State) (port : Fin 4) (m : PtpFrom) (t1 t2 cs : Int) (firstCyc : Nat), s.inService = true →
    (s.fld PTP.STAT_ACTIVE_PORT ≠ port.val ∨ s.hears port.val m = false ∨ s.spansStep firstCyc = true →
      exec (.offsetSample ⟨port, m⟩ t1 t2 cs firstCyc) s = .next s)
    ∧ (s.fld PTP.STAT_ACTIVE_PORT = port.val → s.hears port.val m = true → s.syncAccepted = true → s.spansStep firstCyc = false →
    Safety.Ends (exec (.offsetSample ⟨port, m⟩ t1 t2 cs firstCyc) s) (fun t =>
      t.fld PTP.OFFSET_SEC_SEC = unsignedOf 48 (offsetOf port.val t1 t2 cs s / 1000000000).floor
        ∧ t.fld PTP.OFFSET_NS_SEQ = (s.fld PTP.OFFSET_NS_SEQ + 1) % 65536
        ∧ Safety.MemoryKept s t
        ∧ (∀ key, keyPage key ≠ 0x6 → key ∉ [0x200020, 0x200050, 0x200088, 0x200090, 0x200098, 0x2000A8] → t.reg key = s.reg key)
        ∧ (s.fld PTP.MODE_MODE ≠ 1 ∨ s.pathHeld = true → Safety.OnlyRegs s t [0x200090, 0x200098])
        ∧ (s.fld PTP.MODE_MODE = 1 → s.pathHeld = false →
            ((s.fld PTP.JUMP_THRESH_NS : Rat) < ratAbs (offsetOf port.val t1 t2 cs s) →
              t.fld PTP.STAT_REFUSED = min 65535 (s.fld PTP.STAT_REFUSED + 1) ∧ t.fld PTP.STAT_STATE = 3 ∧ Safety.Raised t Pg.ptp 2
                ∧ t.servo.integ = s.servo.integ ∧ t.fld PTP.INCR_INCR = incrFor s.servo.integ % 2 ^ 40)
            ∧ (ratAbs (offsetOf port.val t1 t2 cs s) ≤ (s.fld PTP.JUMP_THRESH_NS : Rat) →
              t.fld PTP.STAT_REFUSED = s.fld PTP.STAT_REFUSED
                ∧ t.servo.integ
                    = ratClamp servoLimit (s.servo.integ + (s.fld PTP.SERVO_KI : Rat) / 4096 * offsetOf port.val t1 t2 cs s)
                ∧ t.fld PTP.INCR_INCR = incrFor (ratClamp servoLimit (t.servo.integ
                    + (s.fld PTP.SERVO_KP : Rat) / 4096 * offsetOf port.val t1 t2 cs s)) % 2 ^ 40))))

/-- R165 to R167, R176, R177: a delay sample moves the filtered path delay by a sixteenth of the difference; a hold that ends takes the median
of its samples, or stays where there are none (log entry 90); an Announce updates its sender among the masters heard on the port, and the best of
all heard is selected; a source lost in SERVO mode means HOLDOVER at the
integrator's rate.
(The model's choices in it: log entry 11.)
(Completion: DELAY_SAMPLE, PATH_HOLD_END, ANNOUNCE_RECEIVE, SOURCE_LOST.) -/
def Obligations.PathDelayAndMastersFollow : Prop :=
  ∀ s : State,
    (∀ (port : Fin 4) (m : PtpFrom) (t1 t2 t3 t4 cs cd linkDelay : Int) (firstCyc : Nat) (d0 : Rat), s.inService = true →
      s.fld PTP.STAT_ACTIVE_PORT = port.val → s.hears port.val m = true → s.spansStep firstCyc = false → s.servo.delay = some d0 →
      Safety.Ends (exec (.delaySample ⟨port, m⟩ t1 t2 t3 t4 cs cd linkDelay firstCyc) s) (fun t =>
        t.servo.delay = some (d0 + (delayOf t1 t2 t3 t4 cs cd linkDelay s - d0) / 16)
          ∧ t.servo.last8 = (delayOf t1 t2 t3 t4 cs cd linkDelay s :: s.servo.last8).take 8
          ∧ Safety.MemoryKept s t ∧ Safety.RegsKept s t [0x200020, 0x200050, 0x200088, 0x2000A0, 0x2000A8]))
    ∧ (∀ e, s.servo.holdEnd = some e → e ≤ s.cyc → Safety.Ends (exec .pathHoldEnd s) (fun t =>
      t.servo.delay = (match median s.servo.holdSamples with
          | some m => some m
          | none => s.servo.delay)
        ∧ t.servo.holdSamples = [] ∧ Safety.MemoryKept s t ∧ Safety.RegsKept s t [0x200020, 0x200050, 0x200088, 0x2000A0, 0x2000A8]))
    ∧ (∀ (port : Fin 4) (m : PtpFrom) (data : Option Announce), s.inService = true → data = none ∨ s.hears port.val m = true →
      Safety.Ends (exec (.announceReceive ⟨port, m⟩ data) s) (fun t =>
        (∀ a, data = some a → t.servo.masters = { port := port.val, data := a, at0 := s.cyc }
              :: s.servo.masters.filter (fun e => !(e.port = port.val && e.data.sender = a.sender)))
          ∧ (data = none → t.servo.masters = s.servo.masters.filter (fun e => !(e.port = port.val && s.silent e)))
          ∧ t.servo.gm = bestMaster ((t.servo.masters.filter (fun e => s.candidate e.port)).map (fun e => (e.port, e.data)))
          ∧ (∀ m, t.servo.gm = some m → t.fld PTP.STAT_ACTIVE_PORT = m.1 % 4 ∧ t.fld PTP.GM_ID1_PORT = m.2.portNumber.toNat)
          ∧ Safety.MemoryKept s t ∧ Safety.RegsKept s t [0x200020, 0x200050, 0x200088, 0x2000A8, 0x2000B0, 0x2000B8]))
    ∧ (s.inService = true → s.fld PTP.MODE_MODE = 1 → s.fld PTP.STAT_STATE ≠ 4 → Safety.Ends (exec (.sourceLost true) s) (fun t =>
      t.fld PTP.STAT_STATE = 4 ∧ Safety.Raised t Pg.ptp 1 ∧ t.fld PTP.INCR_INCR = incrFor s.servo.integ % 2 ^ 40
        ∧ Safety.OnlyRegs s t [0x200020, 0x200050, 0x200088, 0x2000A8]))

/-- R159, R166, R168, R174: a host step moves the counter by exactly the time it names and sets VALID; MODE takes its value and SERVO begins from
INCR's frequency; a write of CFG in SERVO mode is a master change.
(The model's choices in it: log entry 29.)
(Completion: TIME_STEP, PTP_MODE_WRITE, PTP_CFG_WRITE.) -/
def Obligations.HostStepsAndModes : Prop :=
  ∀ (s : State) (path : Path),
    (∀ (neg : Bool) (n : BitVec 30), Safety.Open path 0x200080 s → n.toNat < 1000000000 → s.servo.stepAt ≠ some s.cyc →
      ¬(s.fld PTP.STEP_SEC_SEC = 0 ∧ n.toNat = 0) → Safety.Ends (exec (.timeStep path neg n) s) (fun t =>
        t.ctr = moved neg (s.fld PTP.STEP_SEC_SEC * Config.unitsPerSec + ns n.toNat) s.ctr ∧ t.valid = true ∧ t.cyc = s.cyc
          ∧ t.servo.stepAt = some s.cyc ∧ t.hbm = s.hbm ∧ t.gallery = s.gallery ∧ t.otp = s.otp))
    ∧ (∀ mode : BitVec 2, Safety.Open path 0x200048 s → mode.toNat ≤ 2 → Safety.Ends (exec (.ptpModeWrite path mode) s) (fun t =>
      t.fld PTP.MODE_MODE = mode.toNat ∧ Safety.MemoryKept s t ∧ Safety.RegsKept s t [0x200020, 0x200048, 0x200050, 0x200088, 0x2000A8]
        ∧ (mode.toNat = 0 → s.fld PTP.MODE_MODE ≠ 0 → t.fld PTP.STAT_STATE = 0)
        ∧ (mode.toNat = 1 → s.fld PTP.MODE_MODE ≠ 1 → t.fld PTP.STAT_STATE = 1 ∧ t.servo.integ = ppbOfIncr (s.fld PTP.INCR_INCR))))
    ∧ (∀ data : Reg, Safety.Open path 0x200040 s → bitsOf data 32 8 ≤ 127 → bitsOf data 0 2 ≤ 1 →
      Safety.Ends (exec (.ptpCfgWrite path data) s) (fun t =>
        t.fld PTP.CFG_DOMAIN = bitsOf data 32 8 ∧ t.fld PTP.CFG_PORT_MASK = bitsOf data 24 4 ∧ t.fld PTP.CFG_PROFILE = bitsOf data 0 2
          ∧ (s.fld PTP.MODE_MODE = 1 → t.fld PTP.STAT_MASTER_CHANGES = min 255 (s.fld PTP.STAT_MASTER_CHANGES + 1) ∧ Safety.Raised t Pg.ptp 5)
          ∧ Safety.MemoryKept s t ∧ Safety.RegsKept s t [0x200020, 0x200040, 0x200050, 0x200088, 0x2000A8, 0x2000B0, 0x2000B8]))

/-- R179 to R182: a bad period of REF_IN counts in BAD_PERIODS and the third in a row declares the input lost; 2 s in tolerance qualify it; a
qualified edge's offset is shown in PHASE.
(The model's choices in it: log entry 11.)
(Completion: REF_PERIOD_END, REF_QUALIFIED, REF_EDGE_OFFSET.) -/
def Obligations.ReferenceIsMonitored : Prop :=
  ∀ s : State, s.inService = true →
    (∀ p : Option Nat, s.fld REF.CFG_ENABLE = 1 →
      Safety.Ends (exec (.refPeriodEnd p) s) (fun t =>
        t.fld REF.STAT_SEEN = refSeen p
          ∧ (p = none → t.refMon.bad = s.refMon.bad + 1 ∧ t.fld REF.STAT_BAD_PERIODS = min 65535 (s.fld REF.STAT_BAD_PERIODS + 1))
          ∧ (p = none → s.refMon.bad = 2 → s.fld REF.STAT_STATE ≠ 3 → t.fld REF.STAT_STATE = 3 ∧ Safety.Raised t Pg.ref 1
              ∧ t.fld REF.STAT_LOSSES = min 65535 (s.fld REF.STAT_LOSSES + 1))
          ∧ (∀ x, p = some x → refInTolerance (s.fld REF.CFG_RATE) x = true →
              t.refMon.bad = 0 ∧ t.fld REF.STAT_BAD_PERIODS = s.fld REF.STAT_BAD_PERIODS)
          ∧ Safety.MemoryKept s t ∧ Safety.RegsKept s t [0x203020, 0x203048, 0x200020, 0x200050, 0x200088, 0x2000A8]))
    ∧ (s.fld REF.CFG_ENABLE = 1 → s.fld REF.STAT_STATE = 1 ∨ s.fld REF.STAT_STATE = 3 → 2000000000000 ≤ s.refMon.good →
      Safety.Ends (exec .refQualified s) (fun t =>
        t.fld REF.STAT_STATE = 2 ∧ Safety.Raised t Pg.ref 0 ∧ Safety.OnlyRegs s t [0x203020, 0x203048]))
    ∧ (s.fld PTP.MODE_MODE = 2 → s.fld REF.STAT_STATE = 2 → s.refMon.bad = 0 → Safety.Ends (exec .refEdgeOffset s) (fun t =>
      t.fld REF.PHASE_PHASE = unsignedOf 32 (refOffset s.ctr (refPeriod (s.fld REF.CFG_RATE)).1 (refPeriod (s.fld REF.CFG_RATE)).2 * 4).floor
        ∧ Safety.MemoryKept s t ∧ Safety.RegsKept s t [0x203050, 0x200020, 0x200050, 0x200088, 0x2000A8]))

/-! ### Lanes, ports and MACs (R185 to R206, R482) -/

/-- R189, R190, R192, R195, R197, R203: the link state machine of a port: from CAL to ACTIVE, back to DETECT on a failure or a loss, out of OFF
after a relock and out of deep rest, to CAL where it was not calibrated yet, each within the time limit of the state it leaves (R190); CAL leads to
DEEP_REST where that is set (R202). Only the port's own pages change.
(The model's choices in it: log entry 74.)
(Completion: LANE_CAL_DONE, SIGNAL_DETECT, CDR_LOCK, ADAPT_CONVERGED, ALIGN_COMPLETE, ADAPT_FAIL, LINK_DOWN, IDLE_FREEZE, ADAPT_RESUME,
SPEED_CHANGE_RELOCK, DEEP_REST_EXIT.) -/
def Obligations.LinkStatesFollow : Prop :=
  ∀ (s : State) (port : Fin 4),
    (∀ trim : Vector (BitVec 24) 4, s.inService = true → s.fld (LANE.STAT_STATE port.val) = 1 →
      Safety.Ends (exec (.laneCalDone port trim) s) (fun t =>
        t.fld (LANE.STAT_STATE port.val) = (if s.fld (LANE.CFG_DEEP_REST port.val) = 1 then 7 else 2) ∧ t.fld (MAC.STAT_LINK port.val) = 0
          ∧ t.fld (SDS.STAT_POWERED (4 * port.val)) = 1 - s.fld (LANE.CFG_DEEP_REST port.val)
          ∧ (∀ i : Fin 4, t.fld (SDS.CAL_OFFSET (4 * port.val + i.val)) = (trim[i]).toNat % 256)
          ∧ Safety.MemoryKept s t ∧ Safety.PagesKept (Safety.portPages port.val) s t))
    ∧ (s.fld (LANE.STAT_STATE port.val) = 2 → Safety.Ends (exec (.signalDetect port) s) (fun t =>
      t.fld (LANE.STAT_STATE port.val) = 3 ∧ (∀ i : Fin 4, t.fld (SDS.STAT_SIGNAL (4 * port.val + i.val)) = 1)
        ∧ Safety.MemoryKept s t ∧ Safety.PagesKept (Safety.portPages port.val) s t))
    ∧ (s.fld (LANE.STAT_STATE port.val) = 3 → s.laneTime port.val ≤ msCyc 1 → Safety.Ends (exec (.cdrLock port) s) (fun t =>
      t.fld (LANE.STAT_STATE port.val) = 4 ∧ t.fld (LANE.STAT_CDR_LOCK port.val) = 15
        ∧ Safety.MemoryKept s t ∧ Safety.PagesKept (Safety.portPages port.val) s t))
    ∧ (∀ lanes : Vector LaneAdapt 4, s.fld (LANE.STAT_STATE port.val) = 4 →
      s.laneTime port.val ≤ (if s.fld (MAC.STAT_SPEED port.val) = 2 then msCyc 5 else msCyc 15) → Safety.Ends (exec (.adaptConverged port lanes) s) (fun t =>
      t.fld (LANE.STAT_STATE port.val) = 5
        ∧ (∀ i : Fin 4, t.fld (LANE.RXEQ_CTLE port.val i.val) = unsignedOf 5 (clampInt 0 31 (lanes[i]).ctle))
        ∧ Safety.MemoryKept s t ∧ Safety.PagesKept (Safety.portPages port.val) s t))
    ∧ (s.fld (LANE.STAT_STATE port.val) = 5 → s.fld (LANE.TEST_GEN port.val) = 0 → s.laneTime port.val ≤ msCyc 2 → Safety.Ends (exec (.alignComplete port) s) (fun t =>
      t.fld (LANE.STAT_STATE port.val) = 6 ∧ t.fld (MAC.STAT_LINK port.val) = 1 ∧ Safety.Raised t (Pg.lane port.val) 0
        ∧ t.fld (MAC.STAT_SPEED port.val) = s.fld (MAC.STAT_SPEED port.val)
        ∧ Safety.MemoryKept s t ∧ Safety.PagesKept (Safety.portPages port.val) s t))
    ∧ (∀ m, s.laneLimit port.val = some m → m ≤ s.laneTime port.val → Safety.Ends (exec (.adaptFail port) s) (fun t =>
      t.fld (LANE.STAT_STATE port.val) = 2 ∧ Safety.Raised t (Pg.lane port.val) 3
        ∧ Safety.MemoryKept s t ∧ Safety.PagesKept (Safety.portPages port.val) s t))
    ∧ (∀ cdrLost : BitVec 4, s.fld (LANE.STAT_STATE port.val) = 6 → Safety.Ends (exec (.linkDown port cdrLost) s) (fun t =>
      t.fld (LANE.STAT_STATE port.val) = 2 ∧ t.fld (MAC.STAT_LINK port.val) = 0 ∧ Safety.Raised t (Pg.lane port.val) 1
        ∧ t.accAt (MAC.LINK_DOWNS_V port.val).key = s.accAt (MAC.LINK_DOWNS_V port.val).key + 1
        ∧ Safety.MemoryKept s t ∧ Safety.PagesKept (Safety.portPages port.val) s t))
    ∧ (s.fld (LANE.STAT_STATE port.val) = 6 → s.fld (LANE.CFG_ADAPT_HOLD port.val) = 0 → (s.lane port.val).idleFrozen = false →
      (s.lane port.val).idleFrom + msCyc 1 ≤ s.cyc → Safety.Ends (exec (.idleFreeze port false false) s) (fun t =>
        (t.lane port.val).idleFrozen = true ∧ t.fld (LANE.STAT_FROZEN port.val) = 1 ∧ t.fld (LANE.STAT_STATE port.val) = 6
          ∧ Safety.MemoryKept s t ∧ Safety.PagesKept (Safety.portPages port.val) s t))
    ∧ (∀ lost : Bool, s.fld (LANE.STAT_STATE port.val) = 6 → Safety.Ends (exec (.idleFreeze port true lost) s) (fun t =>
      (t.lane port.val).idleFrom = s.cyc ∧ (t.lane port.val).idleFrozen = (s.lane port.val).idleFrozen ∧ t.regs = s.regs))
    ∧ (exec (.adaptResume port true) s = .next s
      ∧ (s.fld (LANE.STAT_STATE port.val) = 6 → exec (.idleFreeze port false true) s = .next s))
    ∧ (∀ at' : Nat, (s.lane port.val).idleFrozen = true → (s.lane port.val).resumeAt = some at' → at' ≤ s.cyc →
      Safety.Ends (exec (.adaptResume port false) s) (fun t =>
      (t.lane port.val).idleFrozen = false ∧ t.fld (LANE.STAT_STATE port.val) = s.fld (LANE.STAT_STATE port.val)
        ∧ (s.fld (LANE.CFG_ADAPT_HOLD port.val) = 0 → t.fld (LANE.STAT_FROZEN port.val) = 0)
        ∧ Safety.MemoryKept s t ∧ Safety.PagesKept (Safety.portPages port.val) s t))
    ∧ ((s.lane port.val).relock = true → s.fld (LANE.STAT_STATE port.val) = 0 → s.mayRun port.val = true → Safety.Ends (exec (.speedChangeRelock port) s) (fun t =>
      t.fld (LANE.STAT_STATE port.val) = (if (s.lane port.val).calibrated then 2 else 1) ∧ (t.lane port.val).relock = false
        ∧ Safety.MemoryKept s t ∧ Safety.PagesKept (Safety.portPages port.val) s t))
    ∧ (s.fld (LANE.STAT_STATE port.val) = 7 → s.fld (LANE.CFG_DEEP_REST port.val) = 0 → Safety.Ends (exec (.deepRestExit port) s) (fun t =>
      t.fld (LANE.STAT_STATE port.val) = (if (s.lane port.val).calibrated then 2 else 1) ∧ (t.lane port.val).relock = false
        ∧ Safety.MemoryKept s t ∧ Safety.PagesKept (Safety.portPages port.val) s t))

/-- R201, R479, R482: a write of LANEn.TEST whose patterns suit the speed sets them, clears the error count and takes an ACTIVE port to ALIGN;
a change of LANEn's ENABLE takes the port to OFF or to CAL; a measured eye replaces the last one.
(The model's choices in it: log entry 13.)
(Completion: LANE_TEST_WRITE, LANE_ENABLE_WRITE, EYE_MEASUREMENT.) -/
def Obligations.LaneTestsEnablesAndEyes : Prop :=
  ∀ s : State,
    (∀ (path : Path) (port : Fin 4) (data : Reg), Safety.Open path (Pg.lane port.val + 0x90) s →
      patternFits (s.fld (LANE.CFG_SPEED port.val)) (bitsOf data 0 4) = true → patternFits (s.fld (LANE.CFG_SPEED port.val)) (bitsOf data 4 4) = true →
      bitsOf data 0 4 = 0 ∨ s.portBound port.val = false → Safety.Ends (exec (.laneTestWrite path port data) s) (fun t =>
        t.fld (LANE.TEST_GEN port.val) = bitsOf data 0 4 ∧ t.fld (LANE.TEST_CHECK port.val) = bitsOf data 4 4
          ∧ t.fld (LANE.PRBS_ERR_ERRORS port.val) = 0
          ∧ t.fld (LANE.STAT_STATE port.val)
              = (if bitsOf data 0 4 ≠ 0 ∧ s.fld (LANE.STAT_STATE port.val) = 6 then 5 else s.fld (LANE.STAT_STATE port.val))
          ∧ Safety.MemoryKept s t ∧ Safety.PagesKept (Safety.portPages port.val) s t))
    ∧ (∀ (path : Path) (port : Fin 4) (enable : Bool), Safety.Open path (Pg.lane port.val + 0x10) s → s.portBound port.val = false →
      enable ≠ decide (s.fld (PG_CTRL_ENABLE (Pg.lane port.val)) = 1) → Safety.Ends (exec (.laneEnableWrite path port enable) s) (fun t =>
        t.fld (PG_CTRL_ENABLE (Pg.lane port.val)) = b2n enable ∧ (enable = false → t.fld (LANE.STAT_STATE port.val) = 0)
          ∧ (enable = true → s.fld (LANE.STAT_STATE port.val) = 0 → (s.lane port.val).relock = false → t.fld (LANE.STAT_STATE port.val) = 1)
          ∧ Safety.MemoryKept s t ∧ Safety.PagesKept (Safety.portPages port.val) s t))
    ∧ (∀ (lane : Fin 24) (height width : BitVec 8), s.fld (SDS.STAT_POWERED lane.val) = 1 → s.fld (SDS.STAT_CDR_LOCK lane.val) = 1 →
      Safety.Ends (exec (.eyeMeasurement lane height width) s) (fun t =>
        t.fld (SDS.EYE_HEIGHT lane.val) = height.toNat ∧ t.fld (SDS.EYE_WIDTH lane.val) = width.toNat
          ∧ t.fld (SDS.EYE_SEQ lane.val) = (s.fld (SDS.EYE_SEQ lane.val) + 1) % 65536
          ∧ Safety.OnlyRegs s t [0x110040 + 0x1000 * lane.val]))

/-- R163, R199, R204, R205, R391: a frame on an ACTIVE port is timestamped within its TIME_CLK cycle and counted by why it was discarded, or with its
bytes where the MAC passes it on; under a near-end loop one from the lands is ignored; a delay request is timestamped and stands released
in the port's system queue for each path of its service on an ACTIVE port, and no register changes.
(The model's choices in it: log entries 42, 48.)
(Completion: FRAME_RECEIVE, DELAY_REQ_SEND.) -/
def Obligations.FramesAreCounted : Prop :=
  ∀ (s : State) (port : Fin 4),
    (∀ r : RxFrame, s.looped port.val = true → (s.lane port.val).echoes = [] → exec (.frameReceive port r) s = .next s)
    ∧ (∀ r : RxFrame, s.inService = true → s.portActive port.val = true → s.looped port.val = false → Safety.Ends (exec (.frameReceive port r) s) (fun t =>
      (s.fld (MAC.CFG_MAX_FRAME port.val) < r.size →
          t.accAt (MAC.RX_OVERSIZE_V port.val).key = s.accAt (MAC.RX_OVERSIZE_V port.val).key + 1 ∧ t.regs = s.regs)
        ∧ (r.size < 64 → r.size ≤ s.fld (MAC.CFG_MAX_FRAME port.val) →
          t.accAt (MAC.RX_UNDERSIZE_V port.val).key = s.accAt (MAC.RX_UNDERSIZE_V port.val).key + 1 ∧ t.regs = s.regs)
        ∧ (64 ≤ r.size → r.size ≤ s.fld (MAC.CFG_MAX_FRAME port.val) → r.fcsOk = false →
          t.accAt (MAC.RX_FCS_ERR_V port.val).key = s.accAt (MAC.RX_FCS_ERR_V port.val).key + 1 ∧ t.regs = s.regs)
        ∧ (64 ≤ r.size → r.size ≤ s.fld (MAC.CFG_MAX_FRAME port.val) → r.fcsOk = true → (∃ m, r.kind = .ptp m false) → r.tags < 2 →
          s.addressed port.val r = true →
          t.accAt (MAC.RX_FRAMES_V port.val).key = s.accAt (MAC.RX_FRAMES_V port.val).key + 1
            ∧ t.accAt (MAC.RX_BYTES_V port.val).key = s.accAt (MAC.RX_BYTES_V port.val).key + r.size ∧ t.regs = s.regs)
        ∧ quarters s.ctr ≤ (t.lane port.val).rxStamp ∧ (t.lane port.val).rxStamp ≤ quarters (s.ctr + s.fld PTP.INCR_INCR)
        ∧ (t.lane port.val).idleFrom = s.cyc ∧ Safety.MemoryKept s t))
    ∧ (s.inService = true → bitAt (s.fld PTP.CFG_PORT_MASK) port.val = true → s.fld PTP.CFG_PROFILE = 1 ∨ s.fld PTP.STAT_ACTIVE_PORT = port.val →
      s.stopped 26 = false → Safety.Ends (exec (.delayReqSend port) s) (fun t =>
        (∀ p, p < 2 → s.svcOn (s.serviceOf (8188 + port.val)) p = true →
            s.portActive (s.svcPort (s.serviceOf (8188 + port.val)) p) = true →
            ∃ k ∈ t.queue (8188 + port.val), k.data = (ptpRequest port.val s).1 ∧ k.copy p = .released ∧ k.freeAt = s.cyc)
          ∧ quarters s.ctr ≤ (t.lane port.val).txStamp ∧ (t.lane port.val).txStamp ≤ quarters (s.ctr + s.fld PTP.INCR_INCR)
          ∧ t.regs = s.regs ∧ Safety.MemoryKept s t))

/-! ### The Ingest Hall (R207 to R233) -/

/-- R209, R211, R218, R228, R232: a packet wakes its leg; one of a slot that does not run is filtered and one of a slot that lost its format
is a misfit; of a picture being received the first copy of a number is kept and counted, a later one is a duplicate, and one whose lines are
all over is late; 10 ms without a packet make the leg QUIET.
(The model's choices in it: log entry 48.)
(Completion: ING_PACKET, LEG_QUIET.) -/
def Obligations.LegsHearAndFallQuiet : Prop :=
  ∀ (s : State) (flow : Fin 64) (leg : Leg), s.inService = true → s.legOn flow.val leg = true →
    (∀ pkt : VideoPacket, s.delivers flow.val leg = true → s.stopped 24 = false → s.fld (FLOW.CFG_KIND flow.val) = 1 →
      (s.slotRuns (s.fld (FLOW.CFG_SLOT flow.val)) = false → Safety.Ends (exec (.ingPacket flow leg pkt) s) (fun t =>
        t.fld (legStat flow.val leg) = 1 ∧ ((t.flow flow.val).leg leg).lastAt = s.cyc
          ∧ (s.fld (legStat flow.val leg) ≠ 1 → Safety.Raised t (Pg.flow flow.val) 1)
          ∧ t.accAt (MAC.RX_FILTERED_V (s.legPort flow.val leg)).key = s.accAt (MAC.RX_FILTERED_V (s.legPort flow.val leg)).key + 1
          ∧ Safety.MemoryKept s t ∧ Safety.PagesKept (fun g => decide (g = 0x310 + flow.val)) s t))
      ∧ (s.slotRuns (s.fld (FLOW.CFG_SLOT flow.val)) = true → (s.slot (s.fld (FLOW.CFG_SLOT flow.val))).lost = true →
        Safety.Ends (exec (.ingPacket flow leg pkt) s) (fun t =>
          t.accAt (FLOW.MISFIT_V flow.val).key = s.accAt (FLOW.MISFIT_V flow.val).key + 1 ∧ t.source = s.source ∧ t.subs = s.subs
            ∧ Safety.MemoryKept s t ∧ Safety.PagesKept (fun g => decide (g = 0x310 + flow.val)) s t))
      ∧ (∀ p : Picture, s.slotRuns (s.fld (FLOW.CFG_SLOT flow.val)) = true → (s.slot (s.fld (FLOW.CFG_SLOT flow.val))).lost = false →
        s.fld (FLOW.CFG_PT flow.val) = 0 ∨ s.fld (FLOW.CFG_PT flow.val) = pkt.pt →
        ((s.sub (s.fld (FLOW.CFG_SLOT flow.val)) (s.fld (FLOW.CFG_SUBSTREAM flow.val))).pics.map Picture.grid).Nodup →
        (s.sub (s.fld (FLOW.CFG_SLOT flow.val)) (s.fld (FLOW.CFG_SUBSTREAM flow.val))).pics.find?
          (fun p => !p.synth && decide (p.rtp = pkt.rtp % 2 ^ 32)) = some p → ∀ key, key = seqKey (if p.seqs = [] then pkt.seq else p.seq0) pkt.seq →
        packetMisfit s (s.fld (FLOW.CFG_SLOT flow.val)) pkt = false → Safety.Ends (exec (.ingPacket flow leg pkt) s) (fun t =>
          t.fld (legStat flow.val leg) = 1 ∧ ((t.flow flow.val).leg leg).lastAt = s.cyc ∧ Safety.MemoryKept s t
            ∧ ((Store.at p.seqs {} key).kept = true →
                t.accAt (FLOW.DUPLICATES_V flow.val).key = s.accAt (FLOW.DUPLICATES_V flow.val).key + 1
                  ∧ (leg = .b ∨ (Store.at p.seqs {} key).keptAt ≠ s.cyc → t.source = s.source))
            ∧ ((Store.at p.seqs {} key).kept = false → (∃ d ∈ pkt.srds, s.lineOver (s.fld (FLOW.CFG_SLOT flow.val)) p d.line = false) →
                t.accAt (if leg = .a then FLOW.PKTS_A_V flow.val else FLOW.PKTS_B_V flow.val).key
                    = s.accAt (if leg = .a then FLOW.PKTS_A_V flow.val else FLOW.PKTS_B_V flow.val).key + 1
                  ∧ ∃ q ∈ (t.sub (s.fld (FLOW.CFG_SLOT flow.val)) (s.fld (FLOW.CFG_SUBSTREAM flow.val))).pics,
                      q.grid = p.grid ∧ (Store.at q.seqs {} key).kept = true)
            ∧ ((Store.at p.seqs {} key).kept = false → (∀ d ∈ pkt.srds, s.lineOver (s.fld (FLOW.CFG_SLOT flow.val)) p d.line = true) →
                t.accAt (FLOW.LATE_V flow.val).key = s.accAt (FLOW.LATE_V flow.val).key + 1 ∧ t.source = s.source))))
    ∧ (((s.flow flow.val).leg leg).reported = false → ((s.flow flow.val).leg leg).lastAt + msCyc 10 ≤ s.cyc →
      Safety.Ends (exec (.legQuiet flow leg) s) (fun t =>
        t.fld (legStat flow.val leg) = 2 ∧ Safety.Raised t (Pg.flow flow.val) 0 ∧ ((t.flow flow.val).leg leg).reported = true
          ∧ Safety.MemoryKept s t ∧ Safety.PagesKept (fun g => decide (g = 0x310 + flow.val)) s t))

/-- R219, R225: a line that stays incomplete for 150 µs, and every open line of a stripe whose window closes, is closed and concealed: it holds
the previous picture's line, or black. R226: an expected picture without a packet at the close of its first window is synthesized.
(Completion: LINE_MERGE_TIMEOUT, STRIPE_WINDOW_CLOSE.) -/
def Obligations.OpenLinesAreConcealed : Prop :=
  ∀ (s : State) (slot : Fin 8) (sub : Fin 16), s.inService = true → s.stopped 24 = false →
    ((s.sub slot.val sub.val).pics.map Picture.grid).Nodup →
    (∀ (line : Nat) (p : Picture), (s.sub slot.val sub.val).pics.find? (fun p => (Store.at p.lines {} line).groups ≠ [] && !decide (line ∈ p.closed)
        && decide ((Store.at p.lines {} line).firstAt + usCyc 150 ≤ s.cyc)) = some p → Safety.Ends (exec (.lineMergeTimeout slot sub line) s) (fun t =>
        (∃ q ∈ (t.sub slot.val sub.val).pics, q.grid = p.grid ∧ line ∈ q.closed ∧ line ∈ q.concealed)
          ∧ t.line slot.val sub.val p.buffer line = (match refBuffer (s.sub slot.val sub.val) p.grid with
              | some b => s.line slot.val sub.val b line
              | none => blackLine s slot.val)
          ∧ Safety.Raised t (Pg.chin slot.val) 1 ∧ Safety.MemoryKept s t))
    ∧ (∀ (stripe : Nat) (p : Picture), (s.sub slot.val sub.val).pics.find? (fun p => !decide (stripe ∈ p.shut)
        && decide (stripe < stripesOf (s.lines slot.val) p.ctu32)) = some p → s.slotRuns slot.val = true → s.windowClose slot.val p.grid stripe p.ctu32 ≤ s.ctr →
      Safety.Ends (exec (.stripeWindowClose slot sub stripe) s) (fun t =>
        ((∃ q ∈ (t.sub slot.val sub.val).pics, q.grid = p.grid ∧ stripe ∈ q.shut
              ∧ (p.synth = false → ∀ l ∈ stripeLines (s.lines slot.val) stripe p.ctu32, l ∈ q.closed))
            ∨ (stripesOf (s.lines slot.val) p.ctu32 ≤ p.announced
              ∧ (t.sub slot.val sub.val).prev = if p.synth then (s.sub slot.val sub.val).prev else some (p.buffer, p.grid)))
          ∧ Safety.MemoryKept s t))
    ∧ (∀ e, s.slotRuns slot.val = true → (s.sub slot.val sub.val).pics.find? (fun p => !decide (0 ∈ p.shut)
        && decide (0 < stripesOf (s.lines slot.val) p.ctu32)) = none → s.absentNow slot.val sub.val = some e →
      Safety.Ends (exec (.stripeWindowClose slot sub 0) s) (fun t =>
        (∃ q ∈ (t.sub slot.val sub.val).pics, q.grid = e ∧ q.synth = true ∧ 0 ∈ q.shut)
          ∧ (t.sub slot.val sub.val).expected = some (e + 1) ∧ Safety.Raised t (Pg.chin slot.val) 0 ∧ Safety.MemoryKept s t))
/-! ### Stripes, passes and tables (R222 to R249, R318, R326, R342, R343) -/

/-- R223, R224, R228, R236, R237, R326: a ready stripe is announced and enters dispatch, or waits behind the held ones; the first held one
enters as slots free, STALLED if it waited more than a stripe period; REACQUIRE ends FORMAT_LOST at once; a pass that ends gives its PASS
bit, and one faulted at its end is run again while its limit allows, else concealed.
(The model's choices in it: log entries 36, 70.)
(Completion: STRIPE_ANNOUNCE, ANNOUNCEMENT_RELEASE, CHIN_REACQUIRE, PAF_PASS_DONE.) -/
def Obligations.StripesAreAnnouncedAndPassed : Prop :=
  ∀ s : State,
    (∀ (slot : Fin 8) (sub : Fin 16) (p : Picture), s.inService = true → s.stopped 27 = false →
      ((s.sub slot.val sub.val).pics.map Picture.grid).Nodup → s.toAnnounce slot.val sub.val = some p → s.stripeReady slot.val p = true → Safety.Ends (exec (.stripeAnnounce slot sub) s) (fun t =>
        (s.held = [] → (announced slot.val sub.val p s).canCreate (annOf s slot.val sub.val p) = true → t.held = [])
          ∧ (s.held = [] → (announced slot.val sub.val p s).canCreate (annOf s slot.val sub.val p) = false →
              t.held = [annOf s slot.val sub.val p] ∧ Safety.Raised t Pg.dsp 0)
          ∧ (s.held ≠ [] → t.held = s.held ++ [annOf s slot.val sub.val p])
          ∧ (p.announced + 1 ≠ stripesOf (s.lines slot.val) p.ctu32 ∨ p.shut.length < stripesOf (s.lines slot.val) p.ctu32 →
              ∃ q ∈ (t.sub slot.val sub.val).pics, q.grid = p.grid ∧ q.announced = p.announced + 1)
          ∧ (p.announced + 1 = stripesOf (s.lines slot.val) p.ctu32 → stripesOf (s.lines slot.val) p.ctu32 ≤ p.shut.length → ∀ q ∈ (t.sub slot.val sub.val).pics, q.grid ≠ p.grid)
          ∧ (sub.val = 0 → t.fld (CHIN.STAT_PICTURE slot.val) = p.number % 2 ^ 32)
          ∧ Safety.MemoryKept s t))
    ∧ (∀ (a : Ann) (rest : List Ann), s.held = a :: rest → s.inService = true → s.stopped 27 = false → s.canCreate a = true →
      Safety.Ends (exec .announcementRelease s) (fun t =>
        t.held = rest ∧ Safety.MemoryKept s t
          ∧ (a.madeAt + s.periodCycles (contribution a.slot a.sub) a.ctu32 < s.cyc →
              t.fld DSP.STALL_CONVERTED = min 65535 (s.fld DSP.STALL_CONVERTED + 1) ∧ Safety.Raised t (Pg.chin a.slot) 3)
          ∧ (s.cyc ≤ a.madeAt + s.periodCycles (contribution a.slot a.sub) a.ctu32 →
              t.fld DSP.STALL_CONVERTED = s.fld DSP.STALL_CONVERTED)))
    ∧ (∀ (path : Path) (slot : Fin 8), Safety.Open path (Pg.chin slot.val + 0x48) s → s.fld (PG_SHADOW_BUSY (Pg.chin slot.val)) = 0 →
      Safety.Ends (exec (.chinReacquire path slot) s) (fun t =>
        (t.slot slot.val).lost = false ∧ Safety.MemoryKept s t
          ∧ ((s.slot slot.val).lost = true → (∀ b : Fin 16, (t.sub slot.val b.val).misfitRun = 0)
              ∧ t.fld (CHIN.STAT_STATE slot.val) = (if (s.sub slot.val 0).acquired then 2 else 1)
              ∧ Safety.RegsKept s t [(CHIN.STAT_STATE slot.val).key])
          ∧ ((s.slot slot.val).lost = false → t.regs = s.regs ∧ t.subs = s.subs)))
    ∧ (∀ (slot : Fin 8) (sub : Fin 16) (stripe : Nat) (faulted : Bool) (x : Pass) (rest : List Pass), s.inService = true →
      s.stopped 25 = false →
      takeFirst (fun (x : Pass) => x.start.isSome && x.ann.slot = slot.val && x.ann.sub = sub.val && x.ann.stripe = stripe) s.passes
        = some (x, rest) →
      Safety.Ends (exec (.pafPassDone slot sub stripe faulted) s) (fun t =>
        Safety.MemoryKept s t
          ∧ ((faulted || x.bad) = true → s.cyc + engToTime s (passCycles s x.ann) ≤ x.limit →
              t.fld (PAF.STAT_RERUNS slot.val) = min 65535 (s.fld (PAF.STAT_RERUNS slot.val) + 1) ∧ t.tags = s.tags ∧ t.records = s.records
                ∧ ∃ y ∈ t.passes, y.ann = x.ann ∧ y.start = some s.cyc ∧ y.bad = false)
          ∧ ((faulted || x.bad) = true → x.limit < s.cyc + engToTime s (passCycles s x.ann) →
              t.fld (PAF.STAT_CONCEALS slot.val) = min 65535 (s.fld (PAF.STAT_CONCEALS slot.val) + 1) ∧ Safety.Raised t (Pg.paf slot.val) 3
                ∧ ∀ r ∈ Store.at t.records [] (recordKey slot.val sub.val x.ann.picture stripe), r = absentRecord 0)
          ∧ ((faulted || x.bad) = false →
              t.fld (PAF.STAT_MARGIN_MIN slot.val)
                  = min (s.fld (PAF.STAT_MARGIN_MIN slot.val)) (if s.cyc ≤ x.limit then (x.limit - s.cyc) / 40 else 0)
                ∧ t.fld (PAF.STAT_CONCEALS slot.val) = s.fld (PAF.STAT_CONCEALS slot.val)
                ∧ t.fld (PAF.STAT_RERUNS slot.val) = s.fld (PAF.STAT_RERUNS slot.val))
          ∧ ((faulted || x.bad) = false ∨ x.limit < s.cyc + engToTime s (passCycles s x.ann) →
              ∀ i g, (i, g) ∈ s.tags → g.out = contribution slot.val sub.val → g.grid = x.ann.grid →
                ∃ g', (i, g') ∈ t.tags ∧ stripe ∈ g'.pass)))

/-- R247, R248, R342, R343: LOAD of a conversion table or a region map begins the load of the aligned address; its end leaves the table or
map pending, or in effect at once where the slot or output does not run; an error leaves the old one in effect and records a RESULT. A
conversion table's load goes on while PAF's requests enter the Concourse (R142, R146); a response other than OKAY counts in its ERRORS, a TIMEOUT
as FAB_TIMEOUT has it (R134).
(The model's choices in it: log entry 64.)
(Completion: LUT_LOAD, LUT_LOAD_DONE, MZMAP_LOAD, MZMAP_LOAD_DONE.) -/
def Obligations.TablesAndMapsLoad : Prop :=
  ∀ s : State,
    (∀ (path : Path) (slot : Fin 8) (table : Fin 2), Safety.Open path (Pg.paf slot.val + 0x58 + 0x18 * table.val) s →
      s.fld (PAF.LUT_STAT_BUSY slot.val table.val) = 0 → s.fld (PAF.LUT_STAT_PENDING slot.val table.val) = 0 →
      s.fld (PAF.LUT_ADDR_ADDR slot.val table.val) % 64 = 0 → s.fld (PAF.LUT_ADDR_ADDR slot.val table.val) + 287496 ≤ 0x800000000 →
      Safety.Ends (exec (.lutLoad path slot table) s) (fun t =>
        t.fld (PAF.LUT_STAT_BUSY slot.val table.val) = 1
          ∧ Store.at t.loads 0 (2 * slot.val + table.val) = s.fld (PAF.LUT_ADDR_ADDR slot.val table.val) ∧ t.luts = s.luts
          ∧ Safety.MemoryKept s t ∧ Safety.RegsKept s t [(PAF.LUT_STAT_BUSY slot.val table.val).key]))
    ∧ (∀ (slot : Fin 8) (table : Fin 2) (resp : Resp) (bad : Bool), s.inService = true → s.fld (PAF.LUT_STAT_BUSY slot.val table.val) = 1 →
      resp ≠ .okay ∨ s.issues 25 = true → Safety.Ends (exec (.lutLoadDone slot table resp bad) s) (fun t =>
        t.fld (PAF.LUT_STAT_BUSY slot.val table.val) = 0 ∧ Safety.MemoryKept s t
          ∧ Safety.RegsKept s t [(PAF.LUT_STAT_BUSY slot.val table.val).key, Pg.paf slot.val + 0x20, 0x5778]
          ∧ (resp = .okay ∨ resp = .timeout → t.reg 0x5778 = s.reg 0x5778)
          ∧ (resp ≠ .okay → resp ≠ .timeout → t.fld (FAB.M_STAT_ERRORS 25) = min 65535 (s.fld (FAB.M_STAT_ERRORS 25) + 1))
          ∧ (resp ≠ .okay → t.fld (PAF.LUT_STAT_RESULT slot.val table.val) = (respCode resp).num ∧ t.luts = s.luts
              ∧ Safety.Raised t (Pg.paf slot.val) 1)
          ∧ (resp = .okay → bad = true → 1 ≤ t.fld (PAF.LUT_STAT_RESULT slot.val table.val) ∧ t.luts = s.luts
              ∧ Safety.Raised t (Pg.paf slot.val) 1)
          ∧ (resp = .okay → bad = false → s.slotRuns slot.val = true →
              t.fld (PAF.LUT_STAT_RESULT slot.val table.val) = 0 ∧ t.fld (PAF.LUT_STAT_PENDING slot.val table.val) = 1
                ∧ Store.at t.luts [] (lutKey slot.val table.val 0) = Store.at s.luts [] (lutKey slot.val table.val 0)
                ∧ Store.at t.luts [] (lutKey slot.val table.val 1) = tableEntries s (Store.at s.loads 0 (2 * slot.val + table.val)))
          ∧ (resp = .okay → bad = false → s.slotRuns slot.val = false →
              t.fld (PAF.LUT_STAT_RESULT slot.val table.val) = 0 ∧ t.fld (PAF.LUT_STAT_PENDING slot.val table.val) = 0
                ∧ t.fld (PAF.LUT_STAT_GEN slot.val table.val) = (s.fld (PAF.LUT_STAT_GEN slot.val table.val) + 1) % 65536
                ∧ Store.at t.luts [] (lutKey slot.val table.val 0) = tableEntries s (Store.at s.loads 0 (2 * slot.val + table.val))
                ∧ Safety.Raised t (Pg.paf slot.val) 0)))
    ∧ (∀ (path : Path) (slot : Fin 8) (out : Fin 16), Safety.Open path (Pg.stc slot.val + 0x408) s →
      s.fld (STC.MZMAP_STAT_BUSY slot.val out.val) = 0 → s.fld (STC.MZMAP_STAT_PENDING slot.val out.val) = 0 →
      s.fld (STC.MZMAP_ADDR_ADDR slot.val) % 64 = 0 → Safety.Ends (exec (.mzmapLoad path slot out) s) (fun t =>
        t.fld (STC.MZMAP_STAT_BUSY slot.val out.val) = 1
          ∧ Store.at t.loads 0 (16 + 16 * slot.val + out.val) = s.fld (STC.MZMAP_ADDR_ADDR slot.val) ∧ t.maps = s.maps
          ∧ Safety.MemoryKept s t ∧ Safety.RegsKept s t [(STC.MZMAP_STAT_BUSY slot.val out.val).key]))
    ∧ (∀ (slot : Fin 8) (out : Fin 16) (resp : Resp), s.inService = true → s.fld (STC.MZMAP_STAT_BUSY slot.val out.val) = 1 →
      Safety.Ends (exec (.mzmapLoadDone slot out resp) s) (fun t =>
        t.fld (STC.MZMAP_STAT_BUSY slot.val out.val) = 0 ∧ Safety.MemoryKept s t
          ∧ Safety.RegsKept s t [(STC.MZMAP_STAT_BUSY slot.val out.val).key, Pg.stc slot.val + 0x20]
          ∧ (resp ≠ .okay → t.fld (STC.MZMAP_STAT_RESULT slot.val out.val) = (respCode resp).num ∧ t.maps = s.maps
              ∧ Safety.Raised t (Pg.stc slot.val) 7)
          ∧ (resp = .okay → mapValid ((mapEntries s (Store.at s.loads 0 (16 + 16 * slot.val + out.val))).take
                (s.fld (STC.MZOUT_COLS slot.val out.val) * s.fld (STC.MZOUT_ROWS slot.val out.val))) = false →
              1 ≤ t.fld (STC.MZMAP_STAT_RESULT slot.val out.val) ∧ t.maps = s.maps ∧ Safety.Raised t (Pg.stc slot.val) 7)
          ∧ (resp = .okay → mapValid ((mapEntries s (Store.at s.loads 0 (16 + 16 * slot.val + out.val))).take
                (s.fld (STC.MZOUT_COLS slot.val out.val) * s.fld (STC.MZOUT_ROWS slot.val out.val))) = true →
              t.fld (STC.MZMAP_STAT_RESULT slot.val out.val) = 0
                ∧ (s.outRuns (mezzanine slot.val out.val) = true → t.fld (STC.MZMAP_STAT_PENDING slot.val out.val) = 1
                    ∧ Store.at t.maps [] (mapKey slot.val out.val 1) = mapEntries s (Store.at s.loads 0 (16 + 16 * slot.val + out.val))
                    ∧ Store.at t.maps [] (mapKey slot.val out.val 0) = Store.at s.maps [] (mapKey slot.val out.val 0))
                ∧ (s.outRuns (mezzanine slot.val out.val) = false → t.fld (STC.MZMAP_STAT_PENDING slot.val out.val) = 0
                    ∧ t.fld (STC.MZMAP_STAT_GEN slot.val out.val) = (s.fld (STC.MZMAP_STAT_GEN slot.val out.val) + 1) % 65536
                    ∧ Store.at t.maps [] (mapKey slot.val out.val 0)
                        = mapEntries s (Store.at s.loads 0 (16 + 16 * slot.val + out.val))))))

/-! ### Spans, boundaries, pools and engines in dispatch (R16 to R24, R216, R287, R307 to R310, R455, R479) -/

/-- R17, R19, R21, R22: an accepted Span request is pending until its boundary, which SPAN_TIME shows; at the boundary the Span and the CTU
size change and each running output's D is counted in the new stripe periods.
(The model's choices in it: log entry 28.)
(Completion: SPAN_REQUEST, SPAN_BOUNDARY.) -/
def Obligations.SpanChangesAtItsBoundary : Prop :=
  ∀ s : State,
    (∀ (path : Path) (target : BitVec 2) (quietCtu ctu32 : Bool) (b : Nat), Safety.Open path 0x700040 s → target.toNat ≤ 2 →
      ctu32 = (if target.toNat = 0 then false else if target.toNat = 1 then true else quietCtu) →
      s.fld DSP.SPAN_STAT_THERMAL = 0 → s.span.pending = false → ¬(target.toNat = s.fld DSP.SPAN_STAT_CURRENT ∧ ctu32 = s.ctuNow) →
      s.running.all (s.dPossible (changeSpan target.toNat ctu32 s) ctu32) = true → s.runningPixels ≤ spanLimit target.toNat ctu32 →
      s.spanBoundary = some b → s.withinTen b = true → Safety.Ends (exec (.spanRequest path target quietCtu) s) (fun t =>
        t.span = { s.span with pending := true, boundary := some b, target := target.toNat, ctu32 := ctu32, thermal := false }
          ∧ t.fld DSP.SPAN_STAT_PENDING = 1 ∧ t.fld DSP.SPAN_STAT_PENDING_TARGET = target.toNat
          ∧ t.fld DSP.SPAN_STAT_CURRENT = s.fld DSP.SPAN_STAT_CURRENT ∧ t.fld DSP.SPAN_TIME_SEC_LO = secOf b % 2 ^ 18
          ∧ t.fld DSP.SPAN_TIME_NS = nsOf b ∧ t.fld DSP.SPAN_REQ_TARGET = target.toNat ∧ t.fld DSP.SPAN_REQ_QUIET_CTU = b2n quietCtu
          ∧ Safety.MemoryKept s t ∧ Safety.RegsKept s t [0x700040, 0x700048, 0x700050]))
    ∧ (∀ b, s.span.boundary = some b → s.inService = true → s.span.pending = true → b ≤ s.ctr → Safety.Ends (exec .spanBoundary s) (fun t =>
        t.fld DSP.SPAN_STAT_CURRENT = s.span.target % 4 ∧ t.fld DSP.SPAN_STAT_CTU32 = b2n s.span.ctu32 ∧ Safety.Raised t Pg.dsp 1
          ∧ (∀ o ∈ s.running, ∀ d, convertD (s.outD o) s.ctuNow s.span.ctu32 = some d → d < 512 → t.outD o = d)
          ∧ (s.span.thermal = false → t.span.pending = false ∧ t.span.host = s.span.target ∧ t.fld DSP.SPAN_STAT_PENDING = 0)
          ∧ Safety.MemoryKept s t))

/-- R216, R232, R287, R307, R309, R310, R455, R479: a picture boundary passes to the next, or stops a slot that waited for it, and its
statistics block takes the oldest complete picture (with CHINn and PAFn not armed: R114 has those commit first); a rebuild ends pending, with a
new set in the shadow of the one in force; a pool's period, at a grid point of the members' rate, gives
every running member a share within its cap; an ENABLE takes a bay or an MZE engine into dispatch or out of it.
(The model's choices in it: log entries 32, 77.)
(Completion: PICTURE_BOUNDARY, REBUILD_DONE, POOL_PERIOD, BAY_ENABLE_WRITE, MZE_ENABLE_WRITE.) -/
def Obligations.BoundariesPoolsAndEnables : Prop :=
  ∀ s : State,
    (∀ (slot : Fin 8) (k : Nat), (s.slot slot.val).boundary = some k → s.inService = true → s.slotRuns slot.val = true →
      gridAt (s.rate slot.val) k ≤ s.ctr → Safety.Ends (exec (.pictureBoundary slot) s) (fun t =>
        Safety.MemoryKept s t ∧ (s.fld (PG_SHADOW_BUSY (Pg.chin slot.val)) = 0 → s.fld (PG_SHADOW_BUSY (Pg.paf slot.val)) = 0 →
          ((s.slot slot.val).stopping = false → t.slot slot.val = { s.slot slot.val with boundary := some (k + 1), sets := (t.slot slot.val).sets })
          ∧ ((s.slot slot.val).stopping = true → t.slot slot.val = { sets := (t.slot slot.val).sets } ∧ t.fld (CHIN.STAT_STATE slot.val) = 0)
          ∧ (∀ j x, s.oldestComplete slot.val = some (j, x) → t.fld (STC.SB0_PICTURE slot.val) = x.picture % 2 ^ 32
              ∧ t.fld (STC.SB0_SEQ slot.val) = (s.fld (STC.SB0_SEQ slot.val) + 1) % 65536)
          ∧ (s.oldestComplete slot.val = none → t.fld (STC.SB0_SEQ slot.val) = s.fld (STC.SB0_SEQ slot.val)))))
    ∧ (∀ slot : Fin 8, s.inService = true → s.stopped 29 = false → s.fld (STC.TABLES_BUSY slot.val) = 1 → s.backCoresRun = true →
      Safety.Ends (exec (.rebuildDone slot) s) (fun t =>
        t.fld (STC.TABLES_BUSY slot.val) = 0 ∧ t.fld (STC.TABLES_PENDING slot.val) = 1
          ∧ (Store.at t.rates {} (rateKey slot.val 1)).bad = []
          ∧ (∀ k, k ≠ rateKey slot.val 1 → Store.at t.rates {} k = Store.at s.rates {} k)
          ∧ Safety.MemoryKept s t ∧ Safety.RegsKept s t [(STC.TABLES_BUSY slot.val).key]))
    ∧ (∀ (g : Fin 8) (m : Nat), s.inService = true → s.fld (DSP.POOL_EN g.val) = 1 → (s.members g.val).head? = some m →
      s.atGridPoint (s.rate (outSlot m)) = true →
      Safety.Ends (exec (.poolPeriod g) s) (fun t =>
        (∀ o ∈ s.members g.val, ∃ b, (t.out o).share = some b
            ∧ b ≤ ((s.drain o : Rat) * pictureSeconds (s.rate (outSlot m))).floor.toNat)
          ∧ (∀ o, o ∉ s.members g.val → t.out o = s.out o) ∧ t.regs = s.regs ∧ Safety.MemoryKept s t))
    ∧ (∀ (path : Path) (bay : Fin 16) (enable : Bool), Safety.Open path (Pg.bay bay.val + 0x10) s →
      (enable = false → s.fld (PG_CTRL_ENABLE (Pg.bay bay.val)) = 1 →
        s.runningPixels ≤ s.startLimit * ((s.bayCount - b2n (bitAt (s.fld ARCC.BAYS_AVAILABLE) bay.val) : Nat) : Rat) / 16) →
      Safety.Ends (exec (.bayEnableWrite path bay enable) s) (fun t =>
        t.fld (PG_CTRL_ENABLE (Pg.bay bay.val)) = b2n enable
          ∧ bitAt (t.fld ARCC.BAYS_AVAILABLE) bay.val = (enable && !bitAt (s.fld ARCC.BAYS_RETIRED) bay.val && !s.frozen bay.val)
          ∧ (∀ k, k < 16 → k ≠ bay.val → bitAt (t.fld ARCC.BAYS_AVAILABLE) k = bitAt (s.fld ARCC.BAYS_AVAILABLE) k)
          ∧ t.bays = s.bays ∧ Safety.MemoryKept s t
          ∧ Safety.RegsKept s t [Pg.bay bay.val + 0x10, Pg.bay bay.val + 0x40, ARCC.BAYS_AVAILABLE.key]))
    ∧ (∀ (path : Path) (engine : Fin 8) (enable : Bool), Safety.Open path (Pg.mze engine.val + 0x10) s →
      (enable = false → s.fld (PG_CTRL_ENABLE (Pg.mze engine.val)) = 1 →
        s.mzCapacity (s.engineCount - b2n (decide (s.fld (MZE.STAT_STATE engine.val) ≤ 1))) = true) →
      Safety.Ends (exec (.mzeEnableWrite path engine enable) s) (fun t =>
        t.fld (PG_CTRL_ENABLE (Pg.mze engine.val)) = b2n enable
          ∧ (s.runningOn .mze engine.val = none → t.fld (MZE.STAT_STATE engine.val)
              = (if s.fld (MZE.STAT_STATE engine.val) = 4 then 4 else if s.frozen (16 + engine.val) then 2 else if enable then 0 else 3))
          ∧ ((s.runningOn .mze engine.val).isSome = true → s.frozen (16 + engine.val) = false →
              t.fld (MZE.STAT_STATE engine.val) = s.fld (MZE.STAT_STATE engine.val))
          ∧ Safety.MemoryKept s t ∧ Safety.RegsKept s t [Pg.mze engine.val + 0x10, Pg.mze engine.val + 0x40]))

/-! ### Dispatch, treads and the floor (R250 to R256, R288 to R327) -/

/-- R251, R254 to R256, R259, R292, R293, R317, R322, R323: an engine takes its class's first task, a bay with the coded samples of its
stripe; a task whose slack shrank moves to its level; a landing, once the CTUs before it are coded within their limits, gives the bay a tread
no better than TREAD_TOP, 7 for a repeated stripe; the last CTU by the deadline, within the limits and the cycles of its treads and replays,
ends the run and hands the slice to assembly.
(The model's choices in it: log entries 10, 62.)
(Completion: DISPATCH_TASK, RELEVEL_TICK, LANDING, STRIPE_COMPLETE.) -/
def Obligations.TasksRunOnEngines : Prop :=
  ∀ s : State, s.inService = true →
    (∀ (c : Consumer) (e i : Nat) (x : Task), s.stopped 27 = false → (s.eligible c).head? = some e → s.firstTask c = some (i, x) →
      outSlot x.out < 8 → (∀ level since order, x.st = .ready level since order → level < 16) → Safety.Ends (exec (.dispatchTask c) s) (fun t =>
        t.task i = some { x with st := .running e s.cyc } ∧ (∀ k, k ≠ i → t.task k = s.task k)
          ∧ t.fld DSP.DISPATCHED_COUNT = (s.fld DSP.DISPATCHED_COUNT + 1) % 2 ^ 48
          ∧ (x.kind.consumer = .bays → (t.bayRun e).map (fun r => (r.task, r.start, r.landings, r.bits)) = some (i, s.cyc, 0, 0)
              ∧ (t.bayRun e).map BayRun.source = some (s.codedSamples x) ∧ t.fld (BAY.STAT_STATE e) = 1)
          ∧ (x.kind.consumer = .mze → t.fld (MZE.STAT_STATE e) = 1) ∧ (x.kind.consumer = .assembly → t.fld (EAU.STAT_ASM_BUSY e) = 1)
          ∧ Safety.MemoryKept s t))
    ∧ (s.stopped 27 = false → s.atMicrosecond = true → (s.tasks.map Prod.fst).Nodup → Safety.Ends (exec .relevelTick s) (fun t =>
        (∀ i x level since order, s.task i = some x → x.st = .ready level since order →
          (1 ≤ level → levelOf false (s.limitOf x - s.cyc) < level → ∃ order', t.task i = some { x with
              st := .ready (levelOf false (s.limitOf x - s.cyc)) since order', place := [s.cyc, 0, order'] })
            ∧ (level = 0 ∨ level ≤ levelOf false (s.limitOf x - s.cyc) → t.task i = some x))
          ∧ (∀ i x, s.task i = some x → (∀ level since order, x.st ≠ .ready level since order) → t.task i = some x)
          ∧ t.regs = s.regs ∧ Safety.MemoryKept s t))
    ∧ (∀ (bay : Fin 16) (used : Nat) (ctus : List CtuCode) (r : BayRun) (x : Task) (y : CtuRun), s.bayRun bay.val = some r →
      s.task r.task = some x → outSlot x.out < 8 → r.landings < 8 → (r.replay = none ∨ r.held = false) → y = beforeLanding s x r ctus → y.fits = true →
      y.run.ctus = landingCtu (s.outCtus x.out x.ann.ctu32) r.landings → Safety.Ends (exec (.landing bay used ctus) s) (fun t =>
        (∃ r', t.bayRun bay.val = some r' ∧ r'.task = r.task ∧ r'.landings = r.landings + 1 ∧ r'.bits = y.run.bits ∧ y.run.bits ≤ r'.cap
            ∧ r'.treads.length = r.treads.length + 1 ∧ t.fld (BAY.STAT_TREAD bay.val) = nth r'.treads r.treads.length 0
            ∧ t.fld (STC.TREAD_TREAD_TOP (outSlot x.out)) ≤ nth r'.treads r.treads.length 0 ∧ nth r'.treads r.treads.length 0 ≤ 7
            ∧ (x.ann.repeat_ = true → nth r'.treads r.treads.length 0 = 7))
          ∧ t.fld (BAY.STAT_STATE bay.val) = 2 ∧ t.fld (BAY.STAT_LANDING bay.val) = r.landings ∧ t.tasks = s.tasks
          ∧ Safety.MemoryKept s t))
    ∧ (∀ (bay : Fin 16) (coded : StripeCoded) (r : BayRun) (x : Task) (y : CtuRun), s.bayRun bay.val = some r →
      s.task r.task = some x → outSlot x.out < 8 → 8 ≤ r.landings → r.replay = none → s.cyc ≤ x.dead → y = codeCtus s x r coded.ctus → y.fits = true →
      y.run.ctus = s.outCtus x.out x.ann.ctu32 → coded.cycles ≤ 4096 + y.run.budget + r.extra →
      coded.bytes.length = sliceBytes (y.run.bits - s.stripeHeader x) → s.sliceFits x r.cap coded.bytes = true →
      Safety.Ends (exec (.stripeComplete bay coded) s) (fun t =>
        t.bayRun bay.val = none ∧ t.fld (BAY.COUNT_STRIPES bay.val) = (s.fld (BAY.COUNT_STRIPES bay.val) + 1) % 2 ^ 48
          ∧ t.fld (BAY.LAST_CYCLES bay.val) = coded.cycles % 2 ^ 22
          ∧ (t.task r.task).map (fun y => (y.kind, y.code)) = some (.assemble, coded.bytes) ∧ Safety.MemoryKept s t))

/-- R288, R291, R294, R312 to R315, R324, R325: a stripe that reaches its start limit without a bay, and one that misses its deadline in a
bay, is floor-synthesized: its slot waits to assemble, it queues for a floor path, FLOOR_SYNTH is raised and counted; a free path takes it
and gives it the slice of its skip or DC CTUs, whose NAL unit stays under 1 KiB. A budget breach is a counted fault whose stripe is dispatched
again or floored, at the end of the cycle where the fault retires the bay; in the cycle of the stripe's completion it still counts.
(The model's choices in it: log entries 38, 61, 75.)
(Completion: START_LIMIT_EXPIRY, DEADLINE_EXPIRY, FLOOR_SYNTH_START, FLOOR_SYNTH_DONE, BUDGET_BREACH.) -/
def Obligations.LateStripesAreFloored : Prop :=
  ∀ s : State, s.inService = true →
    (∀ (i : Fin 4096) (x : Task), s.task i.val = some x → x.kind.consumer = .bays → x.engine = none → s.limitOf x ≤ s.cyc →
      outSlot x.out < 8 → Safety.Ends (exec (.startLimitExpiry i) s) (fun t =>
        (t.task i.val).map (fun y => (y.kind, y.floored, y.code)) = some (.assemble, true, []) ∧ i.val ∈ t.floorQ
          ∧ t.fld DSP.CANCELLED_COUNT = (s.fld DSP.CANCELLED_COUNT + 1) % 2 ^ 48
          ∧ t.fld (STC.FAULTS_FLOOR_SYNTHS (outSlot x.out)) = min 65535 (s.fld (STC.FAULTS_FLOOR_SYNTHS (outSlot x.out)) + 1)
          ∧ Safety.Raised t (Pg.stc (outSlot x.out)) 1 ∧ Safety.MemoryKept s t))
    ∧ (∀ (bay : Fin 16) (r : BayRun) (x : Task), s.bayRun bay.val = some r → s.task r.task = some x → x.dead ≤ s.cyc →
      outSlot x.out < 8 → Safety.Ends (exec (.deadlineExpiry bay) s) (fun t =>
        t.bayRun bay.val = none ∧ (t.task r.task).map (fun y => (y.kind, y.floored, y.code)) = some (.assemble, true, [])
          ∧ r.task ∈ t.floorQ ∧ Safety.Raised t (Pg.stc (outSlot x.out)) 1 ∧ Safety.MemoryKept s t
          ∧ (r.risk = false → Safety.Raised t (Pg.stc (outSlot x.out)) 3
              ∧ t.fld (STC.FAULTS_LATE_RISKS (outSlot x.out)) = min 65535 (s.fld (STC.FAULTS_LATE_RISKS (outSlot x.out)) + 1))
          ∧ (r.risk = true → t.fld (STC.FAULTS_LATE_RISKS (outSlot x.out)) = s.fld (STC.FAULTS_LATE_RISKS (outSlot x.out)))))
    ∧ (∀ (pre rest : List Nat) (i n : Nat) (x : Task), s.floorQ = pre ++ i :: rest →
      (∀ j ∈ pre, ∀ y, s.task j = some y → s.pathsFor y.out = []) → s.task i = some x → (s.pathsFor x.out).head? = some n →
      Safety.Ends (exec .floorSynthStart s) (fun t =>
        t.floorQ = pre ++ rest ∧ (n, { task := i, start := s.cyc }) ∈ t.floors ∧ t.fld (EAU.STAT_FLOOR_BUSY n) = 1 ∧ t.tasks = s.tasks
          ∧ Safety.MemoryKept s t ∧ Safety.RegsKept s t [(EAU.STAT_FLOOR_BUSY n).key]))
    ∧ (∀ (path : Fin 16) (k : Nat) (f : FloorRun) (x : Task), s.floors.find? (fun e => e.1 = path.val) = some (k, f) →
      s.task f.task = some x → Safety.Ends (exec (.floorSynthDone path) s) (fun t =>
        (∀ g, (path.val, g) ∉ t.floors) ∧ t.fld (EAU.STAT_FLOOR_BUSY path.val) = 0
          ∧ t.fld (EAU.FLOOR_FLOOR_RUNS path.val) = min 65535 (s.fld (EAU.FLOOR_FLOOR_RUNS path.val) + (1 + f.repeats))
          ∧ (∃ y, t.task f.task = some y ∧ y.kind = x.kind
              ∧ ∀ p, s.picOf x.out x.ann.grid = some p → y.code = (floorData x p s).1
                ∧ (y.code ≠ [] → s.sliceBits x.out x.stripe p y.code < 8192))
          ∧ Safety.MemoryKept s t))
    ∧ (∀ (bay : Fin 16) (ctu : Nat) (r : BayRun) (x : Task), s.bayRun bay.val = some r → s.task r.task = some x → outSlot x.out < 8 →
      r.replay = none → Safety.Ends (exec (.budgetBreach bay ctu) s) (fun t =>
        Safety.Raised t (Pg.bay bay.val) 1
          ∧ t.fld (BAY.FAULT_RESIDUE bay.val) = min 65535 (s.fld (BAY.FAULT_RESIDUE bay.val) + 1)
          ∧ (∃ e ∈ t.kpr.flog.take 2, e.seq = s.kpr.seq ∧ e.kind = 0x21 ∧ e.cls = 4)
          ∧ (Safety.retires s bay.val = true → t.bayRun bay.val = some { r with lost := true } ∧ t.tasks = s.tasks
              ∧ bitAt (t.fld ARCC.BAYS_RETIRED) bay.val = true)
          ∧ (Safety.retires s bay.val = false → t.bayRun bay.val = none
              ∧ (s.cyc < s.limitOf { x with kind := .encode } → (t.task r.task).map (fun y => (y.kind, y.redisp))
                  = some (if isProxy x.out then TaskKind.proxy else TaskKind.encode, true))
              ∧ (s.limitOf { x with kind := .encode } ≤ s.cyc → (t.task r.task).map (fun y => (y.kind, y.floored)) = some (.assemble, true)))
          ∧ Safety.MemoryKept s t))
    ∧ (∀ (bay : Fin 16) (ctu : Nat), s.bayRun bay.val = none → (Store.at s.bayLog {} bay.val).doneAt = some s.cyc →
      Safety.Ends (exec (.budgetBreach bay ctu) s) (fun t =>
        Safety.Raised t (Pg.bay bay.val) 1 ∧ t.bayRun bay.val = none ∧ t.tasks = s.tasks
          ∧ t.fld (BAY.FAULT_RESIDUE bay.val) = min 65535 (s.fld (BAY.FAULT_RESIDUE bay.val) + 1) ∧ Safety.MemoryKept s t))

/-- R344 to R354, R339: an operation on integers that carry their residues is never reported, and one on the code 7 always is; a mismatch
makes a bay replay its CTU and marks it suspect, faults a PAF pass, and is a fault of an MZE engine; the replay's outcome is raised, recorded
and counted, and only a hard one abandons the stripe and leaves the CTU suspect, at the cycle's end where the fault retires the bay; a
lockstep fault abandons a bay's stripe, starts an assembly task again, repeats a floor
path's CTU; RECENT counts the faults of the last 10 s.
(The model's choices in it: log entries 38, 76.)
(Completion: RESIDUE_MISMATCH, REPLAY_DONE, LOCKSTEP_FAULT, FAULT_RECENT_EXPIRY.) -/
def Obligations.EngineFaultsAreCounted : Prop :=
  (∀ (a b : Int) (s : Nat),
    residueMismatch (.add (residueCode a) (residueCode b)) (a + b) = false ∧ residueMismatch (.sub (residueCode a) (residueCode b)) (a - b) = false
      ∧ residueMismatch (.mul (residueCode a) (residueCode b)) (a * b) = false ∧ residueMismatch (.neg (residueCode a)) (-a) = false
      ∧ residueMismatch (.shl (residueCode a) s) (a * 2 ^ s) = false
      ∧ residueMismatch (.shr (residueCode a) s (a % 2 ^ s).toNat) (a / 2 ^ s) = false
      ∧ (1 ≤ s → residueMismatch (.roundShr (residueCode a) s ((a + 2 ^ (s - 1)) % 2 ^ s).toNat) ((a + 2 ^ (s - 1)) / 2 ^ s) = false)
      ∧ residueMismatch (.clip (residueCode a)) a = false ∧ residueMismatch (.abs (residueCode a) (decide (a < 0))) (a.natAbs : Int) = false)
  ∧ (∀ (b : BitVec 3) (v : Int), residueMismatch (.add 7 b) v = true ∧ residueMismatch (.sub b 7) v = true ∧ residueMismatch (.mul 7 b) v = true)
  ∧ ∀ s : State,
    (∀ (unit : CheckedUnit) (op : CheckedOp) (value : Int), residueMismatch op value = false →
      exec (.residueMismatch ⟨unit, op, value⟩) s = .next s)
    ∧ (∀ (bay : Fin 16) (ctu : Nat) (stage : Fin 10) (op : CheckedOp) (value : Int) (r : BayRun), s.inService = true →
      residueMismatch op value = true → stage.val < 9 → s.bayRun bay.val = some r →
      r.replay = none → r.landings ≠ 0 → Safety.Ends (exec (.residueMismatch ⟨.bay bay ctu stage, op, value⟩) s) (fun t =>
        t.bayRun bay.val = some { r with suspects := addBit r.suspects ctu, replay := some (ctu, stage.val), replayAt := s.cyc } ∧ t.regs = s.regs
          ∧ t.tasks = s.tasks ∧ Safety.MemoryKept s t))
    ∧ (∀ (engine : Fin 8) (stage : Fin 3) (op : CheckedOp) (value : Int), s.inService = true → residueMismatch op value = true → stage.val < 2 → s.mzeWorks engine.val = true →
      Safety.Ends (exec (.residueMismatch ⟨.mze engine stage, op, value⟩) s) (fun t =>
        Safety.Raised t (Pg.mze engine.val) 0 ∧ t.fld (MZE.FAULT_FAULTS engine.val) = min 65535 (s.fld (MZE.FAULT_FAULTS engine.val) + 1)
          ∧ t.fld (MZE.FAULT_LAST_STAGE engine.val) = stage.val ∧ Safety.MemoryKept s t))
    ∧ (∀ (slot : Fin 8) (sub : Fin 16) (stripe : Nat) (op : CheckedOp) (value : Int), s.inService = true → residueMismatch op value = true →
      Safety.Ends (exec (.residueMismatch ⟨.paf slot sub stripe, op, value⟩) s) (fun t =>
        (∀ x ∈ t.passes, x.start.isSome = true → x.ann.slot = slot.val → x.ann.sub = sub.val → x.ann.stripe = stripe → x.bad = true)
          ∧ t.passes.map Pass.ann = s.passes.map Pass.ann ∧ t.regs = s.regs ∧ Safety.MemoryKept s t))
    ∧ (∀ (bay : Fin 16) (again equal : Bool) (r : BayRun) (ctu stage : Nat) (x : Task), s.inService = true → s.bayRun bay.val = some r →
      r.replay = some (ctu, stage) → s.task r.task = some x → outSlot x.out < 8 → s.replayInTime r x = true →
      Safety.Ends (exec (.replayDone bay again equal) s) (fun t =>
        t.fld (BAY.RESIDUE_LAST_OUTCOME bay.val) = (if equal then 1 else if again then 2 else 0)
          ∧ t.fld (BAY.RESIDUE_LAST_STAGE bay.val) = stage % 16 ∧ t.fld (BAY.RESIDUE_LAST_CTU bay.val) = ctu % 256
          ∧ Safety.Raised t (Pg.bay bay.val) 0
          ∧ t.fld (BAY.FAULT_RESIDUE bay.val) = min 65535 (s.fld (BAY.FAULT_RESIDUE bay.val) + 1)
          ∧ (∃ e ∈ t.kpr.flog.take 2, e.seq = s.kpr.seq ∧ e.kind = 0x20 ∧ e.cls = 4)
          ∧ (equal = false → again = true → t.bayRun bay.val = (if Safety.retires s bay.val = true then some { r with
                replay := none, held := false, extra := r.extra + (if x.ann.ctu32 then 512 else 2048), lost := true } else none)
              ∧ ∀ p, s.picOf x.out x.ann.grid = some p → ∃ q, t.picOf x.out x.ann.grid = some q ∧ (x.stripe, ctu) ∈ q.suspects)
          ∧ (equal = true ∨ again = false → t.bayRun bay.val = some { r with
                replay := none, held := false, extra := r.extra + (if x.ann.ctu32 then 512 else 2048)
                suspects := r.suspects.filter (fun c => c ≠ ctu), lost := r.lost || Safety.retires s bay.val })
          ∧ Safety.MemoryKept s t))
    ∧ (∀ (bay : Fin 16) (ctu : Nat), s.inService = true →
      (∀ r x, s.bayRun bay.val = some r → s.task r.task = some x → outSlot x.out < 8) →
      Safety.Ends (exec (.lockstepFault (.bay bay ctu)) s) (fun t =>
        (Safety.retires s bay.val = false → t.bayRun bay.val = none)
          ∧ (Safety.retires s bay.val = true → (t.bayRun bay.val).map BayRun.lost = (s.bayRun bay.val).map (fun _ => true))
          ∧ Safety.Raised t (Pg.bay bay.val) 0 ∧ t.fld (BAY.RESIDUE_LAST_STAGE bay.val) = 9
          ∧ t.fld (BAY.RESIDUE_LAST_OUTCOME bay.val) = 3
          ∧ t.fld (BAY.FAULT_RESIDUE bay.val) = min 65535 (s.fld (BAY.FAULT_RESIDUE bay.val) + 1) ∧ Safety.MemoryKept s t))
    ∧ (∀ unit : Fin 16, s.inService = true → (s.runningOn .assembly unit.val).isSome = true →
      Safety.Ends (exec (.lockstepFault (.eau unit)) s) (fun t =>
        Safety.Raised t (Pg.bay unit.val) 0 ∧ t.fld (EAU.FLOOR_ASM_RERUNS unit.val) = min 65535 (s.fld (EAU.FLOOR_ASM_RERUNS unit.val) + 1)
          ∧ Safety.MemoryKept s t))
    ∧ (∀ (unit : Fin 16) (ctu k : Nat) (f : FloorRun) (x : Task), s.inService = true → s.floors.find? (fun e => e.1 = unit.val) = some (k, f) →
      s.task f.task = some x → Safety.Ends (exec (.lockstepFault (.floor unit ctu)) s) (fun t =>
        Safety.Raised t (Pg.bay unit.val) 0
          ∧ t.fld (EAU.FLOOR_FLOOR_REPEATS unit.val) = min 65535 (s.fld (EAU.FLOOR_FLOOR_REPEATS unit.val) + 1)
          ∧ (s.floorInTime x ctu = true → t.ready ≠ .halted ∧ (unit.val, { f with repeats := f.repeats + 1 }) ∈ t.floors)
          ∧ (s.floorInTime x ctu = false → t.ready = .halted ∧ Safety.Raised t Pg.kpr 6) ∧ Safety.MemoryKept s t))
    ∧ (∀ engine : Fin 8, s.inService = true → s.mzeWorks engine.val = true →
      Safety.Ends (exec (.lockstepFault (.mze engine)) s) (fun t =>
        Safety.Raised t (Pg.mze engine.val) 0 ∧ t.fld (MZE.FAULT_LAST_STAGE engine.val) = 2 ∧ Safety.MemoryKept s t))
    ∧ (∀ bay : Fin 16, s.inService = true → Safety.Ends (exec (.faultRecentExpiry (.bay bay)) s) (fun t =>
        (Store.at t.bayLog {} bay.val).faults = (Store.at s.bayLog {} bay.val).faults.filter (fun f => decide (s.cyc < f + tenSeconds))
          ∧ t.fld (BAY.FAULT_RECENT bay.val) = (Store.at t.bayLog {} bay.val).faults.length % 4
          ∧ Safety.MemoryKept s t ∧ Safety.RegsKept s t [(BAY.FAULT_RECENT bay.val).key]))
    ∧ (∀ engine : Fin 8, s.inService = true → Safety.Ends (exec (.faultRecentExpiry (.mze engine)) s) (fun t =>
        (Store.at t.mzeLog {} engine.val).faults = (Store.at s.mzeLog {} engine.val).faults.filter (fun f => decide (s.cyc < f + tenSeconds))
          ∧ t.fld (MZE.FAULT_RECENT engine.val) = (Store.at t.mzeLog {} engine.val).faults.length % 4
          ∧ Safety.MemoryKept s t ∧ Safety.RegsKept s t [(MZE.FAULT_RECENT engine.val).key]))

/-! ### Assembly, egress and gates (R265, R316, R328 to R338, R367, R368, R388 to R408) -/

/-- R264, R265, R316, R328, R338, R367, R368: an assembly task that completes within its cycles leaves the bytes of the stripe's NAL units
with the PACKET step and in the picture's running length and CRC; an MZE engine's task the precinct data of its slices; a PACKET step that
ends frees its slot and puts the stripe's packets in its output's queue, all with the stripe's launch time, or waits for an earlier stripe of
its output; a band not handed over by its floor point is floored, and its slices counted.
(The model's choices in it: log entries 10, 33.)
(Completion: ASSEMBLY_DONE, MEZZ_TASK_DONE, PACKET_TASK_DONE, MZ_FLOOR_POINT.) -/
def Obligations.StripesAndBandsReachTheirQueues : Prop :=
  ∀ s : State, s.inService = true →
    (∀ (unit : Fin 16) (cycles i : Nat) (x : Task) (p : CodedPic) (code : List Byte), s.runningOn .assembly unit.val = some (i, x) →
      x.kind = .assemble → s.picOf x.out x.ann.grid = some p → s.stripeStream x.out x.stripe p x.code = code →
      cycles ≤ 256 + (code.length + 31) / 32 → Safety.Ends (exec (.assemblyDone unit cycles) s) (fun t =>
        t.fld (EAU.COUNT_ASSEMBLIES unit.val) = (s.fld (EAU.COUNT_ASSEMBLIES unit.val) + 1) % 2 ^ 48
          ∧ t.fld (EAU.LAST_BYTES unit.val) = code.length % 2 ^ 28 ∧ t.fld (EAU.LAST_CYCLES unit.val) = cycles % 2 ^ 15
          ∧ t.fld (EAU.STAT_ASM_BUSY unit.val) = 0
          ∧ (t.task i).map (fun y => (y.kind, y.code)) = some (.packet, code)
          ∧ t.picOf x.out x.ann.grid = some { p with length := p.length + code.length, crc := crcFeed 1 code p.crc }
          ∧ Safety.MemoryKept s t))
    ∧ (∀ (engine : Fin 8) (coded : Coded) (i : Nat) (x : Task), s.runningOn .mze engine.val = some (i, x) →
      coded.bytes.length = (if x.ann.repeat_ || x.ann.stalled then 0
        else ((s.bandSlices x).map (fun e => s.precinctSize x.out e.1 e.2.1 e.2.2)).foldl (· + ·) 0) →
      coded.cycles ≤ mzBound (s.taskPixels x) →
      Safety.Ends (exec (.mezzTaskDone engine coded) s) (fun t =>
        t.fld (MZE.COUNT_TASKS engine.val) = (s.fld (MZE.COUNT_TASKS engine.val) + 1) % 2 ^ 48
          ∧ t.fld (MZE.LAST_CYCLES engine.val) = coded.cycles % 2 ^ 22
          ∧ (t.task i).map (fun y => (y.kind, y.code)) = some (.packet, coded.bytes) ∧ Safety.MemoryKept s t))
    ∧ (∀ (task : Fin 4096) (x : Task), s.task task.val = some x → x.kind = .packet → x.engine.isSome = true → s.stopped 26 = false →
      (s.tasks.map Prod.fst).Nodup →
      Safety.Ends (exec (.packetTaskDone task) s) (fun t =>
        (s.earlierOpen x = false → t.task task.val = none)
          ∧ (s.earlierOpen x = true → (∀ e ∈ s.tasks, e.2.out = x.out → e.2.packed = false) →
              t.task task.val = some { x with packed := true } ∧ t.queues = s.queues)
          ∧ (s.earlierOpen x = false → isMezz x.out = false → (∀ e ∈ s.tasks, e.2.out = x.out → e.2.packed = false) →
              (s.picOf x.out x.ann.grid).isSome = true →
              ∃ l, t.queue (s.fld (ASM.OD3_QUEUE x.out)) = s.queue (s.fld (ASM.OD3_QUEUE x.out)) ++ l
                ∧ (t.out x.out).seq = ((s.out x.out).seq + l.length) % 65536
                ∧ ∀ k ∈ l, k.launch = some x.launchAt ∧ k.a = .held ∧ k.b = .held ∧ k.spilled = decide (s.ctr + ns 500000 < x.launchAt))
          ∧ Safety.MemoryKept s t))
    ∧ (∀ (task : Fin 4096) (x : Task), s.task task.val = some x → isMezz x.out = true → x.floored = false → x.packed = false →
      (s.tasks.map Prod.fst).Nodup → x.floorPoint ≤ s.cyc → Safety.Ends (exec (.mzFloorPoint task) s) (fun t =>
        (t.task task.val).map (fun y => (y.kind, y.floored)) = some (x.kind, true)
          ∧ (s.bandSlices x ≠ [] → outSlot x.out < 8 →
              t.fld (STC.MZCNT_FLOORED_SLICES (outSlot x.out) (s.outSub x.out))
                = min (2 ^ (STC.MZCNT_FLOORED_SLICES (outSlot x.out) (s.outSub x.out)).w - 1)
                    (s.fld (STC.MZCNT_FLOORED_SLICES (outSlot x.out) (s.outSub x.out)) + (s.bandSlices x).length)
                ∧ Safety.Raised t (Pg.stc (outSlot x.out)) 5)
          ∧ Safety.MemoryKept s t))

/-- R191, R391, R393, R395, R400, R408: the earliest held packet of a queue is released at its launch time, as a copy on each path that its
service sends on and whose port is ACTIVE; the earliest spilled packet of a queue returns to the Gallery; a port that may start a frame takes
the highest class that is open, ready and has one, and starts its earliest head where that fits; with no candidate of any ready class whose gate
is open, or shut for good, nothing changes.
(The model's choices in it: log entry 65.)
(Completion: PACKET_RELEASE, SPILL_RETURN, FRAME_SELECT.) -/
def Obligations.PacketsAndFramesLeave : Prop :=
  ∀ s : State, s.inService = true → s.stopped 26 = false →
    (∀ (queue : Fin 8192) (pre post : List Pkt) (k : Pkt), splitHeld (s.queue queue.val) = some (pre, k, post) →
      (∀ l, k.launch = some l → l ≤ s.ctr) → Safety.Ends (exec (.packetRelease queue) s) (fun t =>
        (∃ k', t.queue queue.val = sweep (pre ++ k' :: post) ∧ k' = { k with
            freeAt := s.cyc
            a := if s.svcOn (s.serviceOf queue.val) 0 = true ∧ s.portActive (s.svcPort (s.serviceOf queue.val) 0) = true then .released else .gone
            b := if s.svcOn (s.serviceOf queue.val) 1 = true ∧ s.portActive (s.svcPort (s.serviceOf queue.val) 1) = true then .released else .gone })
          ∧ (∀ q, q ≠ queue.val → t.queue q = s.queue q) ∧ Safety.MemoryKept s t))
    ∧ (∀ (queue : Fin 8192) (pre post : List Pkt) (k : Pkt), s.queue queue.val = pre ++ k :: post → (∀ e ∈ pre, e.spilled = false) →
      k.spilled = true → Safety.Ends (exec (.spillReturn queue) s) (fun t =>
        t.queue queue.val = pre ++ { k with spilled := false } :: post ∧ (∀ q, q ≠ queue.val → t.queue q = s.queue q)
          ∧ t.regs = s.regs ∧ Safety.MemoryKept s t))
    ∧ (∀ port : Fin 4, s.portActive port.val = true → (s.port port.val).busyTo ≤ (s.cyc * 5 : Nat) / (2 : Rat) →
      ((∀ c, c < 8 → (bitAt (s.gates port.val) c = false ∧ (s.port port.val).shut c = false) ∨ s.shaperReady (classBucket port.val c) = false
          ∨ s.candidates port.val (port.val / 2) c = []) → exec (.frameSelect port) s = .next s)
      ∧ (∀ (c v : Nat) (e : Candidate), c < 8 → e.q < 8192 →
          (∀ d, c < d → d < 8 → (bitAt (s.gates port.val) d = false ∧ (s.port port.val).shut d = false) ∨ s.shaperReady (classBucket port.val d) = false
            ∨ s.candidates port.val (port.val / 2) d = []) →
          bitAt (s.gates port.val) c = true → s.shaperReady (classBucket port.val c) = true →
          s.nextService port.val (port.val / 2) c (s.candidates port.val (port.val / 2) c) = some v →
          earliestHead (s.candidates port.val (port.val / 2) c) v = some e →
          fitsIn (s.wireTime port.val (s.wireBytes e.q e.k)) (match (s.port port.val).oper with
            | some g => g.longest c
            | none => none) = true →
          fitsIn (s.wireTime port.val (s.wireBytes e.q e.k)) (openTime (s.port port.val).oper (s.port port.val).next c s.ctr) = true →
          Safety.Ends (exec (.frameSelect port) s) (fun t =>
            (t.port port.val).sent = some (e.q, s.wireBytes e.q e.k, e.k.data, e.k.bad)
              ∧ (t.port port.val).frames = (s.port port.val).frames + 1
              ∧ t.fld (QUE.FRAMES_COUNT (e.q / 1024) (e.q % 1024)) = (s.fld (QUE.FRAMES_COUNT (e.q / 1024) (e.q % 1024)) + 1) % 2 ^ 48
              ∧ t.queue e.q = sweep (swapPkt e.k (e.k.setCopy (port.val / 2) .gone) (s.queue e.q))
              ∧ (∀ q, q ≠ e.q → t.queue q = s.queue q) ∧ Safety.MemoryKept s t)))

/-- R399, R401, R403, R404: a change of the oper list's entry shows the gates in force; a pending list starts at its start time; aborting it leaves
the oper list and shows the last start in START, unless it starts in that cycle; an accepted SHAPE leaves every instance of its shaper with BURST
tokens or none.
(Completion: GATE_ENTRY_CHANGE, GATE_LIST_START, ABORT_PENDING, SHADOW_ARM, SHAPE_WRITE.) -/
def Obligations.GatesAndShapers : Prop :=
  ∀ s : State,
    (∀ port : Fin 4, s.inService = true → Safety.Ends (exec (.gateEntryChange port) s) (fun t =>
      t.fld (GATE.STAT_GATES port.val) = s.gates port.val % 256
        ∧ Safety.OnlyRegs s t [0x804078 + 0x1000 * port.val, 0x804088 + 0x1000 * port.val]))
    ∧ (∀ (port : Fin 4) (g : GateList), (s.port port.val).next = some g → s.inService = true → g.start ≤ s.ctr →
      Safety.Ends (exec (.gateListStart port) s) (fun t =>
        (t.port port.val).oper = some g ∧ (t.port port.val).next = none ∧ (t.port port.val).lastStart = g.start
          ∧ (∀ x, x ≠ port.val → t.port x = s.port x)
          ∧ t.fld (GATE.STAT_OPER_EN port.val) = 1 ∧ t.fld (GATE.STAT_PENDING port.val) = 0
          ∧ t.fld (GATE.STAT_OPER_LEN port.val) = g.entries.length % 1024 ∧ Safety.Raised t (Pg.gate port.val) 0
          ∧ Safety.RegsKept s t [0x804078 + 0x1000 * port.val, 0x804088 + 0x1000 * port.val, 0x804020 + 0x1000 * port.val]
          ∧ Safety.MemoryKept s t))
    ∧ (∀ (path : Path) (port : Fin 4), Safety.Open path (Pg.gate port.val + 0x70) s →
      Safety.Ends (exec (.abortPending path port false) s) (fun t =>
        (t.port port.val).next = none ∧ (t.port port.val).oper = (s.port port.val).oper
          ∧ ((s.port port.val).next.isSome = true → t.fld (GATE.STAT_PENDING port.val) = 0
              ∧ t.fld (GATE.START_SEC_LO port.val) = secOf (s.port port.val).lastStart % 2 ^ 18
              ∧ t.fld (GATE.START_NS port.val) = nsOf (s.port port.val).lastStart)
          ∧ (path = .uasyn → t.replies.rsw = some (t.rsw .ok))
          ∧ Safety.RegsKept s t [0x804078 + 0x1000 * port.val, 0x804080 + 0x1000 * port.val] ∧ Safety.MemoryKept s t)
      ∧ (∀ g, (s.port port.val).next = some g → g.start ≤ s.ctr → Safety.Ends (exec (.abortPending path port true) s) (fun t =>
        (t.port port.val).oper = some g ∧ (t.port port.val).next = none ∧ t.fld (GATE.STAT_PENDING port.val) = 0
          ∧ (path = .uasyn → t.replies.rsw = some (t.rsw .stale)) ∧ Safety.Raised t (Pg.gate port.val) 0 ∧ Safety.MemoryKept s t)))
    ∧ (∀ (path : Path) (page : Fin 202) (port : Fin 4) (view : Bool) (p : PageInfo), pageByIndex page.val = some (p, port.val) →
      p.kind = .gate → Safety.Open path (Pg.gate port.val + 0x38) s → s.fld (GATE.STAT_PENDING port.val) = 1 →
      Safety.Ends (exec (.shadowArm path page view) s) (fun t =>
        t.shadow = s.shadow ∧ t.ports = s.ports ∧ (path = .uasyn → t.replies.rsw = some (t.rsw .busy))
          ∧ (path = .pcie → t.fld (PG_STAT_WR_CODE (Pg.gate port.val)) = Code.busy.num)
          ∧ Safety.RegsKept s t [Pg.gate port.val + 0x18] ∧ Safety.MemoryKept s t))
    ∧ (∀ (path : Path) (addr : BitVec 24) (data : Reg) (p : PageInfo) (n : Nat) (r : RegDesc) (k : Nat),
      registerAt addr.toNat = some (p, n, r, k) → Safety.Open path addr.toNat s → r.accepts data = true →
      s.allHold (s.setReg (s.keyAt addr.toNat r n) (r.written (s.reg (s.keyAt addr.toNat r n)) data)) = true →
      (p.kind = .que → addr.toNat % 0x1000 = 0x50 → Safety.Ends (exec (.shapeWrite path addr data) s) (fun t =>
        t.reg (s.keyAt addr.toNat r n) = r.written (s.reg (s.keyAt addr.toNat r n)) data ∧ Safety.RegsKept s t [s.keyAt addr.toNat r n]
          ∧ (∀ path', path' < 2 → t.tokens (queueBucket (1024 * n + s.fld (QUE.SEL_INDEX n)) path')
              = if s.tokensFull (s.serviceOf (1024 * n + s.fld (QUE.SEL_INDEX n)) / 32) = true
                  then ((64 * t.fld (QUE.SHAPE_BURST n (s.fld (QUE.SEL_INDEX n))) : Nat) : Rat) else 0)
          ∧ Safety.MemoryKept s t))
      ∧ (p.kind = .shp → 0x48 ≤ addr.toNat % 0x1000 → addr.toNat % 0x1000 < 0x88 →
        Safety.Ends (exec (.shapeWrite path addr data) s) (fun t =>
          t.reg addr.toNat = r.written (s.reg addr.toNat) data ∧ Safety.RegsKept s t [addr.toNat]
            ∧ t.tokens (classBucket n k) = (if s.tokensFull n = true then ((64 * t.fld (SHP.CLS_BURST n k) : Nat) : Rat) else 0)
            ∧ Safety.MemoryKept s t))
      ∧ (p.kind = .shp → 0x100 ≤ addr.toNat % 0x1000 → addr.toNat % 0x40 = 8 →
        Safety.Ends (exec (.shapeWrite path addr data) s) (fun t =>
          t.reg addr.toNat = r.written (s.reg addr.toNat) data ∧ Safety.RegsKept s t [addr.toNat]
            ∧ (∀ path', path' < 2 → t.tokens (svcBucket (32 * n + k) path')
                = if s.tokensFull n = true then ((64 * t.fld (SHP.SVC_SHAPE_BURST n k) : Nat) : Rat) else 0)
            ∧ Safety.MemoryKept s t)))

/-! ### Check units, scans, counters, latched reads (R161, R380 to R387, R448 to R452, R463) -/

/-- R380 to R387: data written to an unbound unit's DATA register enters its CRC and BYTES; RESET loads the initial value; a read of VALLO
latches the rest for its path; a scan starts on a legal region, has fed its unit every byte of it when it ends DONE, and what came before the
failing beat when it ends in ERROR or ABORTED. A scan changes no memory.
(The model's choices in it: log entry 39.)
(Completion: CRC_FEED, CRC_RESET, VALLO_READ, SCAN_START, SCAN_DONE, SCAN_ERROR, SCAN_ABORT.) -/
def Obligations.CheckUnitsAndScans : Prop :=
  ∀ (s : State) (path : Path) (u : Fin 8),
    (∀ data : Reg, Safety.Open path (0x7080 + 8 * u.val) s → s.unitBound u.val = false → Safety.Ends (exec (.crcFeed path u data) s) (fun t =>
      t.unit u.val = { s.unit u.val with
          value := crcFeed (s.fld (CHK.UCTL_POLY u.val)) (leBytes (s.fld (CHK.UCTL_FEED_BYTES u.val)) data.toNat) (s.unit u.val).value
          bytes := ((s.unit u.val).bytes + s.fld (CHK.UCTL_FEED_BYTES u.val)) % 2 ^ 48 }
        ∧ (∀ w, w ≠ u.val → t.unit w = s.unit w) ∧ t.regs = s.regs ∧ Safety.MemoryKept s t))
    ∧ (∀ data : Reg, Safety.Open path (0x7040 + 8 * u.val) s → s.unitBound u.val = false → 1 ≤ bitsOf data 4 3 → bitsOf data 4 3 ≤ 6 →
      Safety.Ends (exec (.crcReset path u data) s) (fun t =>
        t.fld (CHK.UCTL_FEED_BYTES u.val) = bitsOf data 4 3 ∧ t.fld (CHK.UCTL_POLY u.val) = bitsOf data 0 2
          ∧ ((t.unit u.val).value, (t.unit u.val).bytes)
              = (if bitsOf data 9 1 = 1 ∨ bitsOf data 0 2 ≠ s.fld (CHK.UCTL_POLY u.val) then (crcInit (bitsOf data 0 2), 0)
                else ((s.unit u.val).value, (s.unit u.val).bytes))
          ∧ (∀ w, w ≠ u.val → t.unit w = s.unit w) ∧ Safety.RegsKept s t [0x7040 + 8 * u.val] ∧ Safety.MemoryKept s t))
    ∧ (Safety.OpenRead path (0x7100 + 8 * u.val) s → Safety.Ends (exec (.valloRead path u) s) (fun t =>
      t.replies.data = BitVec.ofNat 48 ((s.unit u.val).value % 2 ^ 32)
        ∧ t.readData path (0x70C0 + 8 * u.val) = BitVec.ofNat 48 ((s.unit u.val).value / 2 ^ 32)
        ∧ t.readData path (0x7140 + 8 * u.val) = BitVec.ofNat 48 (s.unit u.val).bytes
        ∧ (t.unit u.val).value = (s.unit u.val).value ∧ (t.unit u.val).bytes = (s.unit u.val).bytes
        ∧ (∀ q : Path, (if q = .ring then Path.pcie else q) ≠ (if path = .ring then Path.pcie else path) →
            t.readData q (0x70C0 + 8 * u.val) = s.readData q (0x70C0 + 8 * u.val)
              ∧ t.readData q (0x7140 + 8 * u.val) = s.readData q (0x7140 + 8 * u.val))
        ∧ t.regs = s.regs ∧ Safety.MemoryKept s t))
    ∧ ((s.unit u.val).snap.of path = [] → s.readData path (0x70C0 + 8 * u.val) = 0 ∧ s.readData path (0x7140 + 8 * u.val) = 0)
    ∧ (Safety.Open path 0x7190 s → s.scan = none →
      (s.fld CHK.SCAN_LEN_LEN ≠ 0 → scanRange (s.fld CHK.SCAN_ADDR_ADDR) (s.fld CHK.SCAN_LEN_LEN) = true →
        Safety.Ends (exec (.scanStart path u) s) (fun t =>
          t.scan = some { unit := u.val, addr := s.fld CHK.SCAN_ADDR_ADDR, len := s.fld CHK.SCAN_LEN_LEN, at0 := s.cyc } ∧ t.fld CHK.SCAN_STAT_STATE = 1
            ∧ t.fld CHK.SCAN_DONE_BYTES = 0 ∧ t.unit u.val = { s.unit u.val with value := crcInit (s.fld (CHK.UCTL_POLY u.val)), bytes := 0 }
            ∧ Safety.RegsKept s t [0x7190, 0x7198, 0x71A0] ∧ Safety.MemoryKept s t))
      ∧ (s.fld CHK.SCAN_LEN_LEN = 0 → Safety.Ends (exec (.scanStart path u) s) (fun t =>
          t.scan = none ∧ t.fld CHK.SCAN_STAT_STATE = 2
            ∧ t.unit u.val = { s.unit u.val with value := crcInit (s.fld (CHK.UCTL_POLY u.val)), bytes := 0 } ∧ Safety.MemoryKept s t)))
    ∧ (∀ r : ScanRun, s.scan = some r → r.unit = u.val →
      (s.inService = true → s.issues 30 = true → r.fed ≤ r.len → r.most s.cyc = r.len → s.scanReads r = true →
        Safety.Ends (exec .scanDone s) (fun t =>
        t.scan = none ∧ t.fld CHK.SCAN_STAT_STATE = 2 ∧ t.fld CHK.SCAN_STAT_RESULT = 0 ∧ t.fld CHK.SCAN_DONE_BYTES = r.len % 2 ^ 36
          ∧ (t.unit u.val).value = crcFeed (s.fld (CHK.UCTL_POLY u.val)) (scanRead (r.addr + r.fed) (r.len - r.fed) s).1 (s.unit u.val).value
          ∧ Safety.Raised t Pg.chk 0 ∧ Safety.MemoryKept s t))
      ∧ (∀ (fed : Nat) (resp : Resp), s.inService = true → resp ≠ .okay → fed < r.len → r.fed ≤ r.beatStart fed →
        r.beatStart fed ≤ r.most s.cyc → Safety.Ends (exec (.scanError fed resp) s) (fun t =>
        t.scan = none ∧ t.fld CHK.SCAN_STAT_STATE = 4 ∧ t.fld CHK.SCAN_STAT_RESULT = respNum resp
          ∧ t.fld CHK.SCAN_DONE_BYTES = r.beatStart fed % 2 ^ 36
          ∧ t.fld (FAB.M_STAT_ERRORS 30) = min 65535 (s.fld (FAB.M_STAT_ERRORS 30) + 1) ∧ Safety.Raised t Pg.chk 1 ∧ Safety.MemoryKept s t))
      ∧ (∀ fed : Nat, Safety.Open path 0x7190 s → Safety.Ends (exec (.scanAbort path fed false) s) (fun t =>
        t.scan = none ∧ t.fld CHK.SCAN_STAT_STATE = 3
          ∧ t.fld CHK.SCAN_DONE_BYTES = max r.fed (min (r.most s.cyc) (r.beatStart fed)) % 2 ^ 36 ∧ Safety.MemoryKept s t))
      ∧ (∀ fed : Nat, Safety.Open path 0x7190 s → r.fed ≤ r.len → r.most s.cyc = r.len →
        Safety.Ends (exec (.scanAbort path fed true) s) (fun t =>
          t.scan = none ∧ t.fld CHK.SCAN_STAT_STATE = 2 ∧ t.fld CHK.SCAN_DONE_BYTES = r.len % 2 ^ 36 ∧ Safety.Raised t Pg.chk 0
            ∧ Safety.MemoryKept s t)))

/-- R161, R448, R450, R452, R463: a counter at its top wraps to zero with OVF, its event and the carry of a chained pair, or, overtaken by a
write, only with OVF_LOST; CLEAR_ALL clears every counter; TIME_SEC, OFFSET_SEC and FLOG_W0 latch what goes with them for the path that
reads.
(Completion: COUNTER_WRAP, CLEAR_ALL, TIME_SEC_READ, OFFSET_SEC_READ, FLOG_W0_READ.) -/
def Obligations.CountersAndLatchedReads : Prop :=
  ∀ s : State,
    (∀ c : Fin 512, s.inService = true → (c.val % 2 = 0 ∨ bitsOf (s.reg (evselKey c.val)) 46 1 = 0) → s.atTop c.val = true →
      Safety.Ends (exec (.counterWrap c false) s) (fun t =>
        t.reg (cntKey c.val) = 0 ∧ bitsOf (t.reg (evselKey c.val)) 45 1 = 1
          ∧ (bitsOf (s.reg (evselKey c.val)) 43 1 = 1 → Safety.Raised t Pg.pmc 0)
          ∧ (c.val % 2 = 0 → bitsOf (s.reg (evselKey (c.val + 1))) 46 1 = 1 → bitsOf (s.reg (evselKey (c.val + 1))) 47 1 = 1 →
              t.reg (cntKey (c.val + 1)) = s.reg (cntKey (c.val + 1)) + 1)
          ∧ Safety.OnlyRegs s t [cntKey c.val, evselKey c.val, cntKey (c.val + 1), evselKey (c.val + 1), 0x6020])
      ∧ Safety.Ends (exec (.counterWrap c true) s) (fun t =>
        bitsOf (t.reg (evselKey c.val)) 44 1 = 1 ∧ Safety.OnlyRegs s t [evselKey c.val]))
    ∧ (∀ c : Fin 512, s.inService = true → c.val % 2 = 1 → bitsOf (s.reg (evselKey c.val)) 46 1 = 1 → s.atTop (c.val - 1) = true →
      Safety.Ends (exec (.counterWrap c false) s) (fun t =>
        t.reg (cntKey (c.val - 1)) = 0
          ∧ (bitsOf (s.reg (evselKey c.val)) 47 1 = 1 → t.reg (cntKey c.val) = s.reg (cntKey c.val) + 1)
          ∧ Safety.OnlyRegs s t [cntKey (c.val - 1), evselKey (c.val - 1), cntKey c.val, evselKey c.val, 0x6020])
      ∧ Safety.Ends (exec (.counterWrap c true) s) (fun t =>
        t.reg (cntKey (c.val - 1)) = 0 ∧ t.reg (cntKey c.val) = s.reg (cntKey c.val) ∧ bitsOf (t.reg (evselKey c.val)) 44 1 = 1
          ∧ Safety.OnlyRegs s t [cntKey (c.val - 1), evselKey (c.val - 1), evselKey c.val, 0x6020]))
    ∧ (∀ path : Path,
      (Safety.Open path 0x6048 s → Safety.Ends (exec (.clearAll path) s) (fun t =>
        (∀ c, c < 512 → t.reg (cntKey c) = 0)
          ∧ (∀ key, key % 0x1000000 < 0x6200 ∨ 0x6400 ≤ key % 0x1000000 → t.reg key = s.reg key) ∧ Safety.MemoryKept s t))
      ∧ (Safety.OpenRead path 0x1128 s → Safety.Ends (exec (.timeSecRead path) s) (fun t =>
        t.replies.data = BitVec.ofNat 48 (secOf s.ctr) ∧ t.kpr.timeSnap.of path = [s.timeNs] ∧ t.regs = s.regs ∧ Safety.MemoryKept s t))
      ∧ (Safety.OpenRead path 0x200090 s → Safety.Ends (exec (.offsetSecRead path) s) (fun t =>
        t.replies.data = s.reg 0x200090 ∧ t.servo.offsetSnap.of path = [s.reg 0x200098] ∧ t.regs = s.regs ∧ Safety.MemoryKept s t))
      ∧ (Safety.OpenRead path 0x1070 s → Safety.Ends (exec (.flogW0Read path) s) (fun t =>
        (∀ r, s.kpr.flog.find? (fun r => r.seq = s.fld KPR.FLOG_SEL_SEQ) = some r →
            t.replies.data = r.word 0 ∧ t.readData path 0x1078 = r.word 1 ∧ t.readData path 0x1080 = r.word 2
              ∧ t.readData path 0x1088 = r.word 3)
          ∧ (s.kpr.flog.find? (fun r => r.seq = s.fld KPR.FLOG_SEL_SEQ) = none →
            t.replies.data = 0 ∧ t.replies.rsw = some (t.rsw .stale) ∧ t.readData path 0x1078 = 0 ∧ t.readData path 0x1080 = 0
              ∧ t.readData path 0x1088 = 0)
          ∧ t.regs = s.regs ∧ t.kpr.flog = s.kpr.flog ∧ Safety.MemoryKept s t)))

/-! ### Coded words and HBM (R355 to R361, R413 to R428) -/

/-- R355 to R360: a Gallery word with one flipped bit is corrected, counted and noted for its write-back, one with two keeps its bits, counted
and raised, and its reader recovers; a private array's word is corrected likewise; a scrubber reads the word at its place, corrects it with SCRUB
set, and goes on; a master's write of a word prevails over its write-back; an HBM beat with one flipped bit is corrected in place, one with two is
read again, then used or poisoned, and one that a full queued write holds is forwarded.
(The model's choices in it: log entries 59, 98.)
(Completion: GALLERY_READ_ECC, ECC_WRITEBACK, SCRUB_WORD, HBM_READ_ECC, HBM_REREAD_DONE.) -/
def Obligations.CodedWordsAreCorrectedOrKept : Prop :=
  ∀ s : State, s.inService = true →
    (∀ (offset : BitVec 26) (reader : Reader), readerArray reader = false → Store.at s.badWords false (offset.toNat / 8) = false →
      exec (.galleryReadEcc offset 0 reader) s = .next s)
    ∧ (∀ (offset : BitVec 26) (reader : Reader) (flips : BitVec 72) (i : Nat), i < 72 → flips.toNat = 2 ^ i →
      readerArray reader = false → s.reads reader = true →
      Store.at s.badWords false (offset.toNat / 8) = false → Safety.Ends (exec (.galleryReadEcc offset flips reader) s) (fun t =>
        t.fld GAL.ECC_CNT_DATA_CORR = (if i < 64 then min 65535 (s.fld GAL.ECC_CNT_DATA_CORR + 1) else s.fld GAL.ECC_CNT_DATA_CORR)
          ∧ t.fld GAL.ECC_CNT_CHECK_CORR = (if i < 64 then s.fld GAL.ECC_CNT_CHECK_CORR else min 65535 (s.fld GAL.ECC_CNT_CHECK_CORR + 1))
          ∧ t.fld GAL.ECC_LAST_KIND = (if i < 64 then 0 else 1) ∧ t.fld GAL.ECC_LAST_BIT = i ∧ t.fld GAL.ECC_LAST_SCRUB = 0
          ∧ t.fld GAL.ECC_LAST_OFFSET = offset.toNat / 8 * 8
          ∧ Store.at t.wbacks [] (offset.toNat / 8) = Memory.read s.gallery (8 * (offset.toNat / 8)) 8
          ∧ Safety.Raised t Pg.gal 0 ∧ Safety.RegsKept s t [0x902020, 0x902108, 0x902110] ∧ Safety.MemoryKept s t))
    ∧ (∀ (offset : BitVec 26) (reader : Reader) (flips : BitVec 72) (i : Nat), i < 64 → flips.toNat = 2 ^ i →
      readerArray reader = true → s.knownBad reader = false → Safety.Ends (exec (.galleryReadEcc offset flips reader) s) (fun t =>
        t.fld GAL.ECC_CNT_DATA_CORR = min 65535 (s.fld GAL.ECC_CNT_DATA_CORR + 1) ∧ t.fld GAL.ECC_LAST_KIND = 0 ∧ t.fld GAL.ECC_LAST_BIT = i
          ∧ Safety.Raised t Pg.gal 0 ∧ t.wbacks = s.wbacks ∧ Safety.RegsKept s t [0x902020, 0x902108, 0x902110] ∧ Safety.MemoryKept s t))
    ∧ (∀ (offset : BitVec 26) (flips : BitVec 72) (i j : Nat), i < j → j < 72 → flips.toNat = 2 ^ i + 2 ^ j →
      Store.at s.badWords false (offset.toNat / 8) = false →
      Safety.Ends (exec (.galleryReadEcc offset flips .hostRead) s) (fun t =>
        t.fld GAL.ECC_CNT_UNCORR = min 65535 (s.fld GAL.ECC_CNT_UNCORR + 1) ∧ t.fld GAL.ECC_LAST_KIND = 2
          ∧ t.fld GAL.ECC_LAST_OFFSET = offset.toNat / 8 * 8 ∧ Store.at t.badWords false (offset.toNat / 8) = true ∧ Safety.Raised t Pg.gal 1
          ∧ Safety.Stored s.gallery t.gallery (8 * (offset.toNat / 8))
              (flipBytes (flips.toNat % 2 ^ 64) (Memory.read s.gallery (8 * (offset.toNat / 8)) 8))
          ∧ t.kpr.flog.head?.map (fun r => (r.seq, r.kind, r.cls)) = some (s.kpr.seq, 0x30, 4) ∧ t.replies.ep = [true]
          ∧ Safety.RegsKept s t [0x902020, 0x902108, 0x902110, 0x1060] ∧ t.hbm = s.hbm ∧ t.host = s.host ∧ t.otp = s.otp)
      ∧ (∀ (slot : Fin 8) (sub : Fin 16) (stripe : Nat), Safety.Ends (exec (.galleryReadEcc offset flips (.pafSource slot sub stripe)) s) (fun t =>
        (∀ x ∈ t.passes, x.start.isSome = true → x.ann.slot = slot.val → x.ann.sub = sub.val → x.ann.stripe = stripe → x.bad = true)
          ∧ t.fld GAL.ECC_CNT_UNCORR = min 65535 (s.fld GAL.ECC_CNT_UNCORR + 1) ∧ Safety.Raised t Pg.gal 1)))
    ∧ (∀ (offset : BitVec 26) (b : List Byte), Store.at s.wbacks [] (offset.toNat / 8) = b → b ≠ [] →
      Safety.Ends (exec (.eccWriteback offset none) s) (fun t =>
        Safety.Stored s.gallery t.gallery (8 * (offset.toNat / 8)) b ∧ Store.at t.wbacks [] (offset.toNat / 8) = []
          ∧ t.regs = s.regs ∧ t.hbm = s.hbm ∧ t.host = s.host ∧ t.otp = s.otp))
    ∧ (∀ (offset : BitVec 26) (g : GalWrite), s.pwr.core = true → g.enable ≠ 0 →
      (g.enable = 255 ∨ Store.at s.badWords false (offset.toNat / 8) = false →
        Safety.Ends (exec (.eccWriteback offset (some g)) s) (fun t =>
          Safety.Stored s.gallery t.gallery (8 * (offset.toNat / 8))
              (overlay 8 g.enable.toNat (leBytes 8 g.data.toNat) (Memory.read s.gallery (8 * (offset.toNat / 8)) 8))
            ∧ Store.at t.wbacks [] (offset.toNat / 8) = [] ∧ Store.at t.badWords false (offset.toNat / 8) = false
            ∧ t.regs = s.regs ∧ t.hbm = s.hbm ∧ t.host = s.host ∧ t.otp = s.otp))
      ∧ (g.enable ≠ 255 → Store.at s.badWords false (offset.toNat / 8) = true →
        Safety.Ends (exec (.eccWriteback offset (some g)) s) (fun t =>
          t.fld GAL.ECC_CNT_UNCORR = min 65535 (s.fld GAL.ECC_CNT_UNCORR + 1) ∧ Store.at t.wbacks [] (offset.toNat / 8) = []
            ∧ Store.at t.badWords false (offset.toNat / 8) = true ∧ Safety.MemoryKept s t)))
    ∧ (∀ (offset : BitVec 26) (flips : BitVec 72) (b n : Nat), s.pwr.core = true → s.fld GAL.SCRUB_EN = 1 → b = scrubberOf offset.toNat →
      n = Store.at s.scrub 0 b % bankWords → (galleryPlace offset.toNat).word = n → n < s.codedWords b →
      Store.at s.badWords false (offset.toNat / 8) = false →
      (flips = 0 → Safety.Ends (exec (.scrubWord offset flips) s) (fun t =>
        Store.at t.scrub 0 b = (if n + 1 = s.codedWords b then (Store.at s.scrub 0 b / bankWords + 1) * bankWords else Store.at s.scrub 0 b + 1)
          ∧ (∀ k, k ≠ b → Store.at t.scrub 0 k = Store.at s.scrub 0 k) ∧ Safety.RegsKept s t [0x902100] ∧ Safety.MemoryKept s t))
      ∧ (∀ i : Nat, i < 72 → flips.toNat = 2 ^ i → Safety.Ends (exec (.scrubWord offset flips) s) (fun t =>
        t.fld GAL.ECC_LAST_SCRUB = 1 ∧ t.fld GAL.ECC_LAST_BIT = i ∧ t.fld GAL.ECC_LAST_OFFSET = offset.toNat / 8 * 8
          ∧ Store.at t.wbacks [] (offset.toNat / 8) = Memory.read s.gallery (8 * (offset.toNat / 8)) 8
          ∧ Store.at t.scrub 0 b = (if n + 1 = s.codedWords b then (Store.at s.scrub 0 b / bankWords + 1) * bankWords else Store.at s.scrub 0 b + 1)
          ∧ t.fld GAL.SCRUB_PASSES
              = (if s.scrubPasses < t.scrubPasses then (s.fld GAL.SCRUB_PASSES + 1) % 65536 else s.fld GAL.SCRUB_PASSES)
          ∧ Safety.Raised t Pg.gal 0 ∧ Safety.RegsKept s t [0x902020, 0x902100, 0x902108, 0x902110] ∧ Safety.MemoryKept s t)))
    ∧ (∀ (addr : BitVec 35) (reader : Reader), s.readsServed (pcOf addr.toNat) = true →
      (∀ e flips, s.wqEntry (addr.toNat / 32) = some e → e.mask = fullMask →
        Safety.Ends (exec (.hbmReadEcc addr flips false false reader) s) (fun t =>
          t.fld (HBM.FWD_FORWARDED (pcOf (32 * (addr.toNat / 32)) / 32))
              = min (2 ^ (HBM.FWD_FORWARDED 0).w - 1) (s.fld (HBM.FWD_FORWARDED (pcOf (32 * (addr.toNat / 32)) / 32)) + 1)
            ∧ t.rereads = s.rereads ∧ Safety.MemoryKept s t))
      ∧ (s.wqEntry (addr.toNat / 32) = none → Store.at s.poison false (addr.toNat / 32) = false →
        Safety.Ends (exec (.hbmReadEcc addr 0 false false reader) s) (fun t =>
          t.reg (HBM.ECC_CNT_DATA_CORR (pcOf addr.toNat / 32)).key = s.reg (HBM.ECC_CNT_DATA_CORR (pcOf addr.toNat / 32)).key
            ∧ (t.pc (pcOf addr.toNat)).busyAt = s.cyc ∧ t.rereads = s.rereads ∧ t.poison = s.poison ∧ Safety.MemoryKept s t)
        ∧ (∀ (flips : BitVec 266) (i : Nat), i < 256 → flips.toNat = 2 ^ i → Safety.Ends (exec (.hbmReadEcc addr flips false false reader) s) (fun t =>
          t.fld (HBM.ECC_CNT_DATA_CORR (pcOf (32 * (addr.toNat / 32)) / 32))
              = min 65535 (s.fld (HBM.ECC_CNT_DATA_CORR (pcOf (32 * (addr.toNat / 32)) / 32)) + 1)
            ∧ t.fld (HBM.ECC_LAST_KIND (pcOf (32 * (addr.toNat / 32)) / 32)) = 0
            ∧ t.fld (HBM.ECC_LAST_PC (pcOf (32 * (addr.toNat / 32)) / 32)) = pcOf (32 * (addr.toNat / 32)) % 32
            ∧ t.fld (HBM.ECC_LAST_ADDR (pcOf (32 * (addr.toNat / 32)) / 32)) = 32 * (addr.toNat / 32)
            ∧ Safety.Raised t (Pg.hbm (pcOf (32 * (addr.toNat / 32)) / 32)) 0 ∧ (∀ a, Memory.read1 t.hbm a = Memory.read1 s.hbm a)
            ∧ t.rereads = s.rereads ∧ t.gallery = s.gallery))
        ∧ (∀ (flips : BitVec 266) (i j : Nat), i < j → j < 266 → flips.toNat = 2 ^ i + 2 ^ j →
          Safety.Ends (exec (.hbmReadEcc addr flips false false reader) s) (fun t =>
            t.rereads = s.rereads ++ [addr.toNat / 32] ∧ (t.pc (pcOf addr.toNat)).busyAt = s.cyc ∧ t.poison = s.poison ∧ Safety.MemoryKept s t))))
    ∧ (∀ r : Reread, r.beat.toNat ∈ s.rereads → Store.at s.poison false r.beat.toNat = false →
      (∀ reader, r.onDieBad = false → Safety.Ends (exec (.hbmRereadDone 0 r reader) s) (fun t =>
        t.rereads = s.rereads.erase r.beat.toNat ∧ t.fld (HBM.ECC_LAST_KIND (pcOf (32 * r.beat.toNat) / 32)) = 3
          ∧ Store.at t.poison false r.beat.toNat = false
          ∧ t.fld (HBM.ECC_AUX_REREAD_OK (pcOf (32 * r.beat.toNat) / 32))
              = min (2 ^ 24 - 1) (s.fld (HBM.ECC_AUX_REREAD_OK (pcOf (32 * r.beat.toNat) / 32)) + 1)
          ∧ t.fld (HBM.ECC_AUX_ONDIE_CORR (pcOf (32 * r.beat.toNat) / 32))
              = min (2 ^ 24 - 1) (s.fld (HBM.ECC_AUX_ONDIE_CORR (pcOf (32 * r.beat.toNat) / 32)) + b2n r.onDie) ∧ Safety.MemoryKept s t))
      ∧ (∀ flips : BitVec 266, r.onDieBad = true → Safety.Ends (exec (.hbmRereadDone flips r .hostRead) s) (fun t =>
        t.rereads = s.rereads.erase r.beat.toNat ∧ Store.at t.poison false r.beat.toNat = true
          ∧ t.fld (HBM.ECC_LAST_KIND (pcOf (32 * r.beat.toNat) / 32)) = 2
          ∧ t.fld (HBM.ECC_CNT_UNCORR (pcOf (32 * r.beat.toNat) / 32))
              = min 65535 (s.fld (HBM.ECC_CNT_UNCORR (pcOf (32 * r.beat.toNat) / 32)) + 1)
          ∧ Safety.Raised t (Pg.hbm (pcOf (32 * r.beat.toNat) / 32)) 1 ∧ t.replies.ep = [true]
          ∧ Safety.Stored s.hbm t.hbm (32 * r.beat.toNat) (flipBytes (flips.toNat % 2 ^ 256) (Memory.read s.hbm (32 * r.beat.toNat) 32))
          ∧ t.gallery = s.gallery)))

/-- R415 to R423: an interval that ends owes one more refresh, its timer going on from there, and a refresh pays one; a temperature crossing
doubles or halves the debts; an idle channel enters self-refresh and leaves it without a debt; a batch writes the oldest full entries; a merge
read fills a short one, is read again where it fails, and drops the entry of a poisoned beat. Other pseudo-channels and, but for a batch, every
byte of memory stay.
(The model's choices in it: log entry 59.)
(Completion: REFRESH_INTERVAL_END, REFRESH_DONE, HBM_TEMP_CROSSING, SELF_REFRESH_ENTRY, SELF_REFRESH_EXIT, WRITE_BATCH, MERGE_READ_DONE.) -/
def Obligations.HbmKeepsItsTime : Prop :=
  ∀ s : State, s.inService = true →
    (∀ pc : Fin 64, (s.pc pc.val).sr = 0 →
      ((s.pc pc.val).since + s.interval (pc.val / 32) ≤ s.cyc → Safety.Ends (exec (.refreshIntervalEnd pc) s) (fun t =>
        (t.pc pc.val).debt = (s.pc pc.val).debt + 1 ∧ (t.pc pc.val).since = (s.pc pc.val).since + s.interval (pc.val / 32)
          ∧ (t.pc pc.val).wq = (s.pc pc.val).wq
          ∧ ((s.pc pc.val).debt = 8 → (s.pc pc.val).urgent = false → (t.pc pc.val).urgent = true ∧ Safety.Raised t (Pg.hbm (pc.val / 32)) 2
              ∧ t.fld (HBM.REFRESH_URGENT_RUNS (pc.val / 32)) = min 65535 (s.fld (HBM.REFRESH_URGENT_RUNS (pc.val / 32)) + 1))
          ∧ (∀ k, k ≠ pc.val → t.pc k = s.pc k) ∧ Safety.MemoryKept s t))
      ∧ ((s.pc pc.val).debt ≠ 0 → ((s.pc pc.val).mode = 1 → (s.pc pc.val).wq = []) → s.rereadWaits pc.val = false →
        (s.pc pc.val).refreshEnd ≤ s.cyc → Safety.Ends (exec (.refreshDone pc) s) (fun t =>
        (t.pc pc.val).debt = (s.pc pc.val).debt - 1 ∧ (t.pc pc.val).since = (s.pc pc.val).since ∧ (t.pc pc.val).wq = (s.pc pc.val).wq
          ∧ (t.pc pc.val).freeAt = (s.pc pc.val).refreshEnd ∧ (∀ k, k ≠ pc.val → t.pc k = s.pc k) ∧ Safety.MemoryKept s t)))
    ∧ (∀ (stack : Fin 2) (above : Bool),
      decide (85 < signedOf 8 (if stack.val = 0 then s.fld KPR.THERM_STAT_HBM0_C else s.fld KPR.THERM_STAT_HBM1_C)) = above →
      s.fld (HBM.REFRESH_HOT stack.val) = b2n (!above) → Safety.Ends (exec (.hbmTempCrossing stack above) s) (fun t =>
        t.fld (HBM.REFRESH_HOT stack.val) = b2n above
          ∧ (∀ i d a : Nat, i < 32 → (s.pc (32 * stack.val + i)).sr = 0 →
              d = (s.pc (32 * stack.val + i)).debt + (s.cyc - (s.pc (32 * stack.val + i)).since) / s.interval stack.val →
              a = (s.pc (32 * stack.val + i)).since
                + (s.cyc - (s.pc (32 * stack.val + i)).since) / s.interval stack.val * s.interval stack.val →
              (t.pc (32 * stack.val + i)).debt = (if above then 2 * d + b2n (decide (a + 780 ≤ s.cyc)) else (d + 1) / 2))
          ∧ (∀ k, k / 32 ≠ stack.val → t.pc k = s.pc k) ∧ Safety.MemoryKept s t))
    ∧ (∀ channel : Fin 32, s.channelIdle channel.val = true → Safety.Ends (exec (.selfRefreshEntry channel) s) (fun t =>
        (t.pc (2 * channel.val)).sr = 2 ∧ (t.pc (2 * channel.val + 1)).sr = 2
          ∧ t.fld (HBM.SR_STAT_ENTRIES (channel.val / 16)) = (s.fld (HBM.SR_STAT_ENTRIES (channel.val / 16)) + 1) % 65536
          ∧ (∀ k, k / 2 ≠ channel.val → t.pc k = s.pc k) ∧ Safety.MemoryKept s t))
    ∧ (∀ (channel : Fin 32) (accepted : Nat), (s.pc (2 * channel.val)).sr = 2 → 1 ≤ accepted →
      Safety.Ends (exec (.selfRefreshExit channel accepted) s) (fun t =>
        (∀ k, k / 2 = channel.val → (t.pc k).sr = 0 ∧ (t.pc k).debt = 0 ∧ (t.pc k).since = s.cyc ∧ (t.pc k).wq = (s.pc k).wq)
          ∧ t.fld (HBM.SR_STAT_SR_LATE (channel.val / 16)) = min 65535 (s.fld (HBM.SR_STAT_SR_LATE (channel.val / 16)) + accepted)
          ∧ (∀ k, k / 2 ≠ channel.val → t.pc k = s.pc k) ∧ Safety.MemoryKept s t))
    ∧ (∀ pc : Fin 64, s.readsServed pc.val = true → ((s.pc pc.val).wq.map WqEntry.beat).Nodup → (∀ e ∈ (s.pc pc.val).wq, e.data.length = 32) →
      Safety.Ends (exec (.writeBatch pc) s) (fun t =>
        (t.pc pc.val).wq = (s.pc pc.val).wq.filter (fun e =>
            decide (e ∉ ((s.pc pc.val).wq.filter (fun x => decide (x.mask = fullMask))).take 32))
          ∧ (∀ a, Memory.read1 t.hbm a = match (((s.pc pc.val).wq.filter (fun x => decide (x.mask = fullMask))).take 32).find?
                (fun e => decide (e.beat = a / 32)) with
              | some e => nth e.data (a % 32) 0
              | none => Memory.read1 s.hbm a)
          ∧ (∀ k, k ≠ pc.val → t.pc k = s.pc k) ∧ t.gallery = s.gallery ∧ t.host = s.host ∧ t.otp = s.otp))
    ∧ (∀ (pc : Fin 64) (read : MergeRead) (e : WqEntry), s.readsServed pc.val = true →
      (s.pc pc.val).wq.find? (fun e => decide (e.beat = read.beat.toNat)) = some e → e.mask ≠ fullMask →
      (Store.at s.poison false read.beat.toNat = false → read.beat.toNat ∉ s.rereads → read.flips = 0 → read.onDieBad = false →
        Safety.Ends (exec (.mergeReadDone pc read) s) (fun t =>
          (t.pc pc.val).wq = (s.pc pc.val).wq.map (fun x => if x.beat = read.beat.toNat then { e with
              mask := fullMask, data := overlay 32 e.mask e.data (Memory.read s.hbm (32 * read.beat.toNat) 32) } else x)
            ∧ t.fld (HBM.FWD_MERGES (pc.val / 32)) = min (2 ^ 24 - 1) (s.fld (HBM.FWD_MERGES (pc.val / 32)) + 1)
            ∧ (∀ k, k ≠ pc.val → t.pc k = s.pc k) ∧ Safety.MemoryKept s t))
      ∧ (Store.at s.poison false read.beat.toNat = false → read.onDieBad = true → Safety.Ends (exec (.mergeReadDone pc read) s) (fun t =>
          t.rereads = s.rereads ++ [read.beat.toNat] ∧ t.pcs = s.pcs ∧ Safety.MemoryKept s t))
      ∧ (Store.at s.poison false read.beat.toNat = true → Safety.Ends (exec (.mergeReadDone pc read) s) (fun t =>
          (t.pc pc.val).wq = (s.pc pc.val).wq.filter (fun x => decide (x.beat ≠ read.beat.toNat))
            ∧ t.fld (HBM.ECC_CNT_UNCORR (pc.val / 32)) = min 65535 (s.fld (HBM.ECC_CNT_UNCORR (pc.val / 32)) + 1)
            ∧ (∀ k, k ≠ pc.val → t.pc k = s.pc k) ∧ Safety.MemoryKept s t)))

/-! ### Sound (R433 to R439, R479) -/

/-- R433, R435 to R439, R479: a microphone whose bits stand still is ABSENT and raised, and returns after 1 ms; a TDM frame start, of a MASTER port
at a sample instant, takes the masks for its frame, and one that comes early or late is counted and raised; a slave port without a frame for 1 ms
stalls; the word clock's windows are judged, and a port in SLAVE_WCLK holds over while the monitor is not QUALIFIED; ENABLE starts and stops a port.
No memory changes.
(The model's choices in it: log entries 45, 46.)
(Completion: MIC_ABSENT, MIC_RESUME, TDM_FRAME_START, PORT_STALL, WCLK_PERIOD_END, TDM_ENABLE_WRITE.) -/
def Obligations.SoundFollows : Prop :=
  ∀ s : State, s.inService = true →
    (∀ mic : Fin 16,
      (bitAt (s.fld PDM.STAT_ABSENT) mic.val = false → Safety.Ends (exec (.micAbsent mic) s) (fun t =>
        t.fld PDM.STAT_ABSENT = s.fld PDM.STAT_ABSENT + 2 ^ mic.val ∧ Safety.Raised t Pg.pdm 0 ∧ Store.at t.audio.absent 0 mic.val = s.cyc
          ∧ Safety.RegsKept s t [0xA000C8, 0xA00020] ∧ Safety.MemoryKept s t))
      ∧ (Store.at s.audio.absent 0 mic.val + msCyc 1 ≤ s.cyc → Safety.Ends (exec (.micResume mic) s) (fun t =>
        t.fld PDM.STAT_ABSENT = clearBit (s.fld PDM.STAT_ABSENT) mic.val ∧ Safety.OnlyRegs s t [0xA000C8])))
    ∧ (∀ (port : Fin 4) (bclks : Nat) (slots : List Bool) (r : TdmRun), s.tdm port.val = some r →
      (s.fld (TDM.CFG_CLOCK port.val) = 0 → s.atSample = true) → s.fld (TDM.STAT_STATE port.val) ≠ 2 →
      Safety.Ends (exec (.tdmFrameStart port bclks slots) s) (fun t =>
        t.fld (TDM.STAT_STATE port.val) = (if s.fld (TDM.CFG_CLOCK port.val) = 2 ∧ s.fld AUDC.WCLK_STAT_STATE ≠ 2 then 3 else 1)
          ∧ (∃ r', t.tdm port.val = some r' ∧ r'.startAt = s.cyc ∧ r'.fresh = false ∧ r'.rxMask = s.fld (TDM.MASK_RX_MASK port.val)
              ∧ r'.txMask = s.fld (TDM.MASK_TX_MASK port.val))
          ∧ (r.fresh = false → bclks ≠ 32 * s.tdmSlots port.val → (s.fld (TDM.CFG_CLOCK port.val) = 2 → s.fld AUDC.WCLK_STAT_STATE = 2) →
              Safety.Raised t (Pg.tdm port.val) 2
                ∧ t.fld (TDM.REALIGNS_COUNT port.val) = min (2 ^ 48 - 1) (s.fld (TDM.REALIGNS_COUNT port.val) + 1))
          ∧ (r.fresh = true ∨ bclks = 32 * s.tdmSlots port.val
              ∨ (s.fld (TDM.CFG_CLOCK port.val) = 2 ∧ s.fld AUDC.WCLK_STAT_STATE ≠ 2) → t.fld (TDM.REALIGNS_COUNT port.val) = s.fld (TDM.REALIGNS_COUNT port.val))
          ∧ (∀ k, k ≠ port.val → t.tdm k = s.tdm k) ∧ Safety.MemoryKept s t))
    ∧ (∀ (port : Fin 4) (bclks : Nat) (slots : List Bool), (s.tdm port.val).isSome = true → s.fld (TDM.STAT_STATE port.val) = 2 →
      (s.fld (TDM.CFG_CLOCK port.val) = 0 → s.atSample = true) → Safety.Ends (exec (.tdmFrameStart port bclks slots) s) (fun t =>
        t.fld (TDM.STAT_STATE port.val) = (if s.fld (TDM.CFG_CLOCK port.val) = 2 ∧ s.fld AUDC.WCLK_STAT_STATE ≠ 2 then 3 else 1)
          ∧ (∃ r', t.tdm port.val = some r' ∧ r'.startAt = s.cyc ∧ r'.fresh = false) ∧ Safety.MemoryKept s t))
    ∧ (∀ (port : Fin 4) (r : TdmRun), s.tdm port.val = some r → s.fld (TDM.CFG_CLOCK port.val) ≠ 0 → s.fld (TDM.STAT_STATE port.val) ≠ 2 →
      r.startAt + msCyc 1 ≤ s.cyc → Safety.Ends (exec (.portStall port) s) (fun t =>
        t.fld (TDM.STAT_STATE port.val) = 2 ∧ Safety.Raised t (Pg.tdm port.val) 1 ∧ t.tdm port.val = some { r with wire := [] }
          ∧ Safety.RegsKept s t [0xA01068 + 0x1000 * port.val, 0xA01020 + 0x1000 * port.val] ∧ Safety.MemoryKept s t))
    ∧ (∀ p : Option Nat, s.fld AUDC.WCLK_CFG_ENABLE = 1 → Safety.Ends (exec (.wclkPeriodEnd p) s) (fun t =>
        t.fld AUDC.WCLK_STAT_SEEN = wclkSeen p
          ∧ (p = none → t.audio.wclk.bad = s.audio.wclk.bad + 1
              ∧ t.fld AUDC.WCLK_STAT_BAD_PERIODS = min 65535 (s.fld AUDC.WCLK_STAT_BAD_PERIODS + 1))
          ∧ (p = none → s.audio.wclk.bad = 2 → s.fld AUDC.WCLK_STAT_STATE ≠ 3 → t.fld AUDC.WCLK_STAT_STATE = 3 ∧ Safety.Raised t Pg.audc 1
              ∧ t.fld AUDC.WCLK_STAT_LOSSES = min 65535 (s.fld AUDC.WCLK_STAT_LOSSES + 1))
          ∧ (∀ x, p = some x → wclkInTolerance (s.fld AUDC.WCLK_CFG_RATE) x = true →
              t.audio.wclk.bad = 0 ∧ t.fld AUDC.WCLK_STAT_BAD_PERIODS = s.fld AUDC.WCLK_STAT_BAD_PERIODS
                ∧ (1999000000000 ≤ s.audio.wclk.good → s.fld AUDC.WCLK_STAT_STATE = 1 ∨ s.fld AUDC.WCLK_STAT_STATE = 3 →
                    t.fld AUDC.WCLK_STAT_STATE = 2 ∧ Safety.Raised t Pg.audc 0))
          ∧ Safety.MemoryKept s t ∧ Safety.RegsKept s t [0xA05050, 0xA05020, 0xA01068, 0xA02068, 0xA03068, 0xA04068]
          ∧ (∀ n r, n < 4 → s.tdm n = some r → s.fld (TDM.STAT_STATE n) ≠ 2 → t.fld (TDM.STAT_STATE n)
              = (if s.fld (TDM.CFG_CLOCK n) = 2 ∧ t.fld AUDC.WCLK_STAT_STATE ≠ 2 then 3 else 1))))
    ∧ (∀ (path : Path) (port : Fin 4), Safety.Open path (Pg.tdm port.val + 0x10) s →
      (s.fld (PG_CTRL_ENABLE (Pg.tdm port.val)) = 0 → (s.fld AUDC.CFG_RATE = 1 → s.fld (TDM.CFG_SLOTS port.val) ≠ 4) →
        (s.fld (TDM.CFG_CLOCK port.val) = 2 → s.fld AUDC.WCLK_CFG_RATE = (if s.fld AUDC.CFG_RATE = 1 then 3 else 1)) →
        Safety.Ends (exec (.tdmEnableWrite path port true) s) (fun t =>
          t.fld (PG_CTRL_ENABLE (Pg.tdm port.val)) = 1
            ∧ t.fld (TDM.STAT_STATE port.val) = (if s.fld (TDM.CFG_CLOCK port.val) = 2 ∧ s.fld AUDC.WCLK_STAT_STATE ≠ 2 then 3 else 1) ∧ t.fld (TDM.STAT_SLIP_DROP port.val) = 0
            ∧ t.fld (TDM.STAT_SLIP_REPEAT port.val) = 0 ∧ (∃ r, t.tdm port.val = some r ∧ r.startAt = s.cyc ∧ r.fresh = true)
            ∧ Safety.RegsKept s t [0xA01010 + 0x1000 * port.val, 0xA01068 + 0x1000 * port.val] ∧ Safety.MemoryKept s t))
      ∧ Safety.Ends (exec (.tdmEnableWrite path port false) s) (fun t =>
          t.fld (PG_CTRL_ENABLE (Pg.tdm port.val)) = 0 ∧ t.fld (TDM.STAT_STATE port.val) = 0 ∧ t.tdm port.val = none
            ∧ Safety.RegsKept s t [0xA01010 + 0x1000 * port.val, 0xA01068 + 0x1000 * port.val] ∧ Safety.MemoryKept s t))

/-! ### The invariant and the state after reset -/

/-- Every step, whatever command stands at the front of the queue and on an empty queue too, keeps HBM, the Gallery, the microcode stores, host
memory and the register store in canonical form and the attention generation a 32-bit number. -/
def Obligations.StepKeepsCanonicalForm : Prop :=
  ∀ s t : State, Safety.Canonical s → s.attnGen < 2 ^ 32 → step s = .next t → Safety.Canonical t ∧ t.attnGen < 2 ^ 32

/-- The state after reset is canonical, the queue empty, the module COLD without power, and each register reads the reset value of its
table: R474 to R476 for the page headers, R480 for the directory.
(The model's choices in it: log entry 6.) -/
def Obligations.ResetIsColdAndCanonical : Prop :=
  Safety.Canonical State.reset ∧ State.reset.attnGen = 0 ∧ State.reset.pending = [] ∧ State.reset.ready = .cold
    ∧ State.reset.pwr.core = false ∧ (∀ key, State.reset.reg key = resetValue key)
    ∧ (∀ (i : Fin 202) (p : PageInfo) (n : Nat), pageByIndex i.val = some (p, n) →
        bitsOf (State.reset.reg (p.base n)) 32 16 = p.subsys ∧ bitsOf (State.reset.reg (p.base n)) 16 16 = p.typ
          ∧ bitsOf (State.reset.reg (p.base n)) 0 8 = 1 ∧ State.reset.fld (PG_CTRL_ENABLE (p.base n)) = 1
          ∧ State.reset.fld (PG_EVENT_EVENTS (p.base n)) = 0 ∧ State.reset.reg (0x40 + 8 * i.val) = BitVec.ofNat 48 (dirEntry i.val))
end

