-- ==== Sys2Proof/Laws/State.lean ====
section
/-!
SUPPORT. Laws/State.lean: the fields that each shared update of State leaves alone, one lemma per field per update.
-/
namespace Sys2Proof.Machine

variable (s t : State)

/-! ### A register written -/

@[simp] theorem State.setReg_shadow (k : Nat) (v : Reg) : (s.setReg k v).shadow = s.shadow := rfl
@[simp] theorem State.setReg_acc (k : Nat) (v : Reg) : (s.setReg k v).acc = s.acc := rfl
@[simp] theorem State.setReg_hbm (k : Nat) (v : Reg) : (s.setReg k v).hbm = s.hbm := rfl
@[simp] theorem State.setReg_gallery (k : Nat) (v : Reg) : (s.setReg k v).gallery = s.gallery := rfl
@[simp] theorem State.setReg_engineCode (k : Nat) (v : Reg) : (s.setReg k v).engineCode = s.engineCode := rfl
@[simp] theorem State.setReg_timeCode (k : Nat) (v : Reg) : (s.setReg k v).timeCode = s.timeCode := rfl
@[simp] theorem State.setReg_host (k : Nat) (v : Reg) : (s.setReg k v).host = s.host := rfl
@[simp] theorem State.setReg_otp (k : Nat) (v : Reg) : (s.setReg k v).otp = s.otp := rfl
@[simp] theorem State.setReg_cyc (k : Nat) (v : Reg) : (s.setReg k v).cyc = s.cyc := rfl
@[simp] theorem State.setReg_ctr (k : Nat) (v : Reg) : (s.setReg k v).ctr = s.ctr := rfl
@[simp] theorem State.setReg_valid (k : Nat) (v : Reg) : (s.setReg k v).valid = s.valid := rfl
@[simp] theorem State.setReg_free (k : Nat) (v : Reg) : (s.setReg k v).free = s.free := rfl
@[simp] theorem State.setReg_attnGen (k : Nat) (v : Reg) : (s.setReg k v).attnGen = s.attnGen := rfl
@[simp] theorem State.setReg_ready (k : Nat) (v : Reg) : (s.setReg k v).ready = s.ready := rfl
@[simp] theorem State.setReg_pins (k : Nat) (v : Reg) : (s.setReg k v).pins = s.pins := rfl
@[simp] theorem State.setReg_pwr (k : Nat) (v : Reg) : (s.setReg k v).pwr = s.pwr := rfl
@[simp] theorem State.setReg_kpr (k : Nat) (v : Reg) : (s.setReg k v).kpr = s.kpr := rfl
@[simp] theorem State.setReg_boot (k : Nat) (v : Reg) : (s.setReg k v).boot = s.boot := rfl
@[simp] theorem State.setReg_sec (k : Nat) (v : Reg) : (s.setReg k v).sec = s.sec := rfl
@[simp] theorem State.setReg_hif (k : Nat) (v : Reg) : (s.setReg k v).hif = s.hif := rfl
@[simp] theorem State.setReg_pci (k : Nat) (v : Reg) : (s.setReg k v).pci = s.pci := rfl
@[simp] theorem State.setReg_replies (k : Nat) (v : Reg) : (s.setReg k v).replies = s.replies := rfl
@[simp] theorem State.setReg_masters (k : Nat) (v : Reg) : (s.setReg k v).masters = s.masters := rfl
@[simp] theorem State.setReg_servo (k : Nat) (v : Reg) : (s.setReg k v).servo = s.servo := rfl
@[simp] theorem State.setReg_refMon (k : Nat) (v : Reg) : (s.setReg k v).refMon = s.refMon := rfl
@[simp] theorem State.setReg_clk (k : Nat) (v : Reg) : (s.setReg k v).clk = s.clk := rfl
@[simp] theorem State.setReg_lanes (k : Nat) (v : Reg) : (s.setReg k v).lanes = s.lanes := rfl
@[simp] theorem State.setReg_subs (k : Nat) (v : Reg) : (s.setReg k v).subs = s.subs := rfl
@[simp] theorem State.setReg_slots (k : Nat) (v : Reg) : (s.setReg k v).slots = s.slots := rfl
@[simp] theorem State.setReg_flows (k : Nat) (v : Reg) : (s.setReg k v).flows = s.flows := rfl
@[simp] theorem State.setReg_anc (k : Nat) (v : Reg) : (s.setReg k v).anc = s.anc := rfl
@[simp] theorem State.setReg_source (k : Nat) (v : Reg) : (s.setReg k v).source = s.source := rfl
@[simp] theorem State.setReg_stats (k : Nat) (v : Reg) : (s.setReg k v).stats = s.stats := rfl
@[simp] theorem State.setReg_span (k : Nat) (v : Reg) : (s.setReg k v).span = s.span := rfl
@[simp] theorem State.setReg_held (k : Nat) (v : Reg) : (s.setReg k v).held = s.held := rfl
@[simp] theorem State.setReg_tasks (k : Nat) (v : Reg) : (s.setReg k v).tasks = s.tasks := rfl
@[simp] theorem State.setReg_passes (k : Nat) (v : Reg) : (s.setReg k v).passes = s.passes := rfl
@[simp] theorem State.setReg_quarter (k : Nat) (v : Reg) : (s.setReg k v).quarter = s.quarter := rfl
@[simp] theorem State.setReg_records (k : Nat) (v : Reg) : (s.setReg k v).records = s.records := rfl
@[simp] theorem State.setReg_summary (k : Nat) (v : Reg) : (s.setReg k v).summary = s.summary := rfl
@[simp] theorem State.setReg_copies (k : Nat) (v : Reg) : (s.setReg k v).copies = s.copies := rfl
@[simp] theorem State.setReg_luts (k : Nat) (v : Reg) : (s.setReg k v).luts = s.luts := rfl
@[simp] theorem State.setReg_lutBad (k : Nat) (v : Reg) : (s.setReg k v).lutBad = s.lutBad := rfl
@[simp] theorem State.setReg_loads (k : Nat) (v : Reg) : (s.setReg k v).loads = s.loads := rfl
@[simp] theorem State.setReg_tags (k : Nat) (v : Reg) : (s.setReg k v).tags = s.tags := rfl
@[simp] theorem State.setReg_order (k : Nat) (v : Reg) : (s.setReg k v).order = s.order := rfl
@[simp] theorem State.setReg_outs (k : Nat) (v : Reg) : (s.setReg k v).outs = s.outs := rfl
@[simp] theorem State.setReg_bays (k : Nat) (v : Reg) : (s.setReg k v).bays = s.bays := rfl
@[simp] theorem State.setReg_bayLog (k : Nat) (v : Reg) : (s.setReg k v).bayLog = s.bayLog := rfl
@[simp] theorem State.setReg_mzeLog (k : Nat) (v : Reg) : (s.setReg k v).mzeLog = s.mzeLog := rfl
@[simp] theorem State.setReg_floors (k : Nat) (v : Reg) : (s.setReg k v).floors = s.floors := rfl
@[simp] theorem State.setReg_floorQ (k : Nat) (v : Reg) : (s.setReg k v).floorQ = s.floorQ := rfl
@[simp] theorem State.setReg_regions (k : Nat) (v : Reg) : (s.setReg k v).regions = s.regions := rfl
@[simp] theorem State.setReg_slices (k : Nat) (v : Reg) : (s.setReg k v).slices = s.slices := rfl
@[simp] theorem State.setReg_maps (k : Nat) (v : Reg) : (s.setReg k v).maps = s.maps := rfl
@[simp] theorem State.setReg_queues (k : Nat) (v : Reg) : (s.setReg k v).queues = s.queues := rfl
@[simp] theorem State.setReg_buckets (k : Nat) (v : Reg) : (s.setReg k v).buckets = s.buckets := rfl
@[simp] theorem State.setReg_svcs (k : Nat) (v : Reg) : (s.setReg k v).svcs = s.svcs := rfl
@[simp] theorem State.setReg_ports (k : Nat) (v : Reg) : (s.setReg k v).ports = s.ports := rfl
@[simp] theorem State.setReg_rates (k : Nat) (v : Reg) : (s.setReg k v).rates = s.rates := rfl
@[simp] theorem State.setReg_pcs (k : Nat) (v : Reg) : (s.setReg k v).pcs = s.pcs := rfl
@[simp] theorem State.setReg_poison (k : Nat) (v : Reg) : (s.setReg k v).poison = s.poison := rfl
@[simp] theorem State.setReg_badWords (k : Nat) (v : Reg) : (s.setReg k v).badWords = s.badWords := rfl
@[simp] theorem State.setReg_wbacks (k : Nat) (v : Reg) : (s.setReg k v).wbacks = s.wbacks := rfl
@[simp] theorem State.setReg_rereads (k : Nat) (v : Reg) : (s.setReg k v).rereads = s.rereads := rfl
@[simp] theorem State.setReg_scrub (k : Nat) (v : Reg) : (s.setReg k v).scrub = s.scrub := rfl
@[simp] theorem State.setReg_chk (k : Nat) (v : Reg) : (s.setReg k v).chk = s.chk := rfl
@[simp] theorem State.setReg_scan (k : Nat) (v : Reg) : (s.setReg k v).scan = s.scan := rfl
@[simp] theorem State.setReg_sealSnap (k : Nat) (v : Reg) : (s.setReg k v).sealSnap = s.sealSnap := rfl
@[simp] theorem State.setReg_audio (k : Nat) (v : Reg) : (s.setReg k v).audio = s.audio := rfl
@[simp] theorem State.setReg_pending (k : Nat) (v : Reg) : (s.setReg k v).pending = s.pending := rfl

/-! ### A field written -/

@[simp] theorem State.setFld_shadow (f : Fld) (v : Nat) : (s.setFld f v).shadow = s.shadow := rfl
@[simp] theorem State.setFld_acc (f : Fld) (v : Nat) : (s.setFld f v).acc = s.acc := rfl
@[simp] theorem State.setFld_hbm (f : Fld) (v : Nat) : (s.setFld f v).hbm = s.hbm := rfl
@[simp] theorem State.setFld_gallery (f : Fld) (v : Nat) : (s.setFld f v).gallery = s.gallery := rfl
@[simp] theorem State.setFld_engineCode (f : Fld) (v : Nat) : (s.setFld f v).engineCode = s.engineCode := rfl
@[simp] theorem State.setFld_timeCode (f : Fld) (v : Nat) : (s.setFld f v).timeCode = s.timeCode := rfl
@[simp] theorem State.setFld_host (f : Fld) (v : Nat) : (s.setFld f v).host = s.host := rfl
@[simp] theorem State.setFld_otp (f : Fld) (v : Nat) : (s.setFld f v).otp = s.otp := rfl
@[simp] theorem State.setFld_cyc (f : Fld) (v : Nat) : (s.setFld f v).cyc = s.cyc := rfl
@[simp] theorem State.setFld_ctr (f : Fld) (v : Nat) : (s.setFld f v).ctr = s.ctr := rfl
@[simp] theorem State.setFld_valid (f : Fld) (v : Nat) : (s.setFld f v).valid = s.valid := rfl
@[simp] theorem State.setFld_free (f : Fld) (v : Nat) : (s.setFld f v).free = s.free := rfl
@[simp] theorem State.setFld_attnGen (f : Fld) (v : Nat) : (s.setFld f v).attnGen = s.attnGen := rfl
@[simp] theorem State.setFld_ready (f : Fld) (v : Nat) : (s.setFld f v).ready = s.ready := rfl
@[simp] theorem State.setFld_pins (f : Fld) (v : Nat) : (s.setFld f v).pins = s.pins := rfl
@[simp] theorem State.setFld_pwr (f : Fld) (v : Nat) : (s.setFld f v).pwr = s.pwr := rfl
@[simp] theorem State.setFld_kpr (f : Fld) (v : Nat) : (s.setFld f v).kpr = s.kpr := rfl
@[simp] theorem State.setFld_boot (f : Fld) (v : Nat) : (s.setFld f v).boot = s.boot := rfl
@[simp] theorem State.setFld_sec (f : Fld) (v : Nat) : (s.setFld f v).sec = s.sec := rfl
@[simp] theorem State.setFld_hif (f : Fld) (v : Nat) : (s.setFld f v).hif = s.hif := rfl
@[simp] theorem State.setFld_pci (f : Fld) (v : Nat) : (s.setFld f v).pci = s.pci := rfl
@[simp] theorem State.setFld_replies (f : Fld) (v : Nat) : (s.setFld f v).replies = s.replies := rfl
@[simp] theorem State.setFld_masters (f : Fld) (v : Nat) : (s.setFld f v).masters = s.masters := rfl
@[simp] theorem State.setFld_servo (f : Fld) (v : Nat) : (s.setFld f v).servo = s.servo := rfl
@[simp] theorem State.setFld_refMon (f : Fld) (v : Nat) : (s.setFld f v).refMon = s.refMon := rfl
@[simp] theorem State.setFld_clk (f : Fld) (v : Nat) : (s.setFld f v).clk = s.clk := rfl
@[simp] theorem State.setFld_lanes (f : Fld) (v : Nat) : (s.setFld f v).lanes = s.lanes := rfl
@[simp] theorem State.setFld_subs (f : Fld) (v : Nat) : (s.setFld f v).subs = s.subs := rfl
@[simp] theorem State.setFld_slots (f : Fld) (v : Nat) : (s.setFld f v).slots = s.slots := rfl
@[simp] theorem State.setFld_flows (f : Fld) (v : Nat) : (s.setFld f v).flows = s.flows := rfl
@[simp] theorem State.setFld_anc (f : Fld) (v : Nat) : (s.setFld f v).anc = s.anc := rfl
@[simp] theorem State.setFld_source (f : Fld) (v : Nat) : (s.setFld f v).source = s.source := rfl
@[simp] theorem State.setFld_stats (f : Fld) (v : Nat) : (s.setFld f v).stats = s.stats := rfl
@[simp] theorem State.setFld_span (f : Fld) (v : Nat) : (s.setFld f v).span = s.span := rfl
@[simp] theorem State.setFld_held (f : Fld) (v : Nat) : (s.setFld f v).held = s.held := rfl
@[simp] theorem State.setFld_tasks (f : Fld) (v : Nat) : (s.setFld f v).tasks = s.tasks := rfl
@[simp] theorem State.setFld_passes (f : Fld) (v : Nat) : (s.setFld f v).passes = s.passes := rfl
@[simp] theorem State.setFld_quarter (f : Fld) (v : Nat) : (s.setFld f v).quarter = s.quarter := rfl
@[simp] theorem State.setFld_records (f : Fld) (v : Nat) : (s.setFld f v).records = s.records := rfl
@[simp] theorem State.setFld_summary (f : Fld) (v : Nat) : (s.setFld f v).summary = s.summary := rfl
@[simp] theorem State.setFld_copies (f : Fld) (v : Nat) : (s.setFld f v).copies = s.copies := rfl
@[simp] theorem State.setFld_luts (f : Fld) (v : Nat) : (s.setFld f v).luts = s.luts := rfl
@[simp] theorem State.setFld_lutBad (f : Fld) (v : Nat) : (s.setFld f v).lutBad = s.lutBad := rfl
@[simp] theorem State.setFld_loads (f : Fld) (v : Nat) : (s.setFld f v).loads = s.loads := rfl
@[simp] theorem State.setFld_tags (f : Fld) (v : Nat) : (s.setFld f v).tags = s.tags := rfl
@[simp] theorem State.setFld_order (f : Fld) (v : Nat) : (s.setFld f v).order = s.order := rfl
@[simp] theorem State.setFld_outs (f : Fld) (v : Nat) : (s.setFld f v).outs = s.outs := rfl
@[simp] theorem State.setFld_bays (f : Fld) (v : Nat) : (s.setFld f v).bays = s.bays := rfl
@[simp] theorem State.setFld_bayLog (f : Fld) (v : Nat) : (s.setFld f v).bayLog = s.bayLog := rfl
@[simp] theorem State.setFld_mzeLog (f : Fld) (v : Nat) : (s.setFld f v).mzeLog = s.mzeLog := rfl
@[simp] theorem State.setFld_floors (f : Fld) (v : Nat) : (s.setFld f v).floors = s.floors := rfl
@[simp] theorem State.setFld_floorQ (f : Fld) (v : Nat) : (s.setFld f v).floorQ = s.floorQ := rfl
@[simp] theorem State.setFld_regions (f : Fld) (v : Nat) : (s.setFld f v).regions = s.regions := rfl
@[simp] theorem State.setFld_slices (f : Fld) (v : Nat) : (s.setFld f v).slices = s.slices := rfl
@[simp] theorem State.setFld_maps (f : Fld) (v : Nat) : (s.setFld f v).maps = s.maps := rfl
@[simp] theorem State.setFld_queues (f : Fld) (v : Nat) : (s.setFld f v).queues = s.queues := rfl
@[simp] theorem State.setFld_buckets (f : Fld) (v : Nat) : (s.setFld f v).buckets = s.buckets := rfl
@[simp] theorem State.setFld_svcs (f : Fld) (v : Nat) : (s.setFld f v).svcs = s.svcs := rfl
@[simp] theorem State.setFld_ports (f : Fld) (v : Nat) : (s.setFld f v).ports = s.ports := rfl
@[simp] theorem State.setFld_rates (f : Fld) (v : Nat) : (s.setFld f v).rates = s.rates := rfl
@[simp] theorem State.setFld_pcs (f : Fld) (v : Nat) : (s.setFld f v).pcs = s.pcs := rfl
@[simp] theorem State.setFld_poison (f : Fld) (v : Nat) : (s.setFld f v).poison = s.poison := rfl
@[simp] theorem State.setFld_badWords (f : Fld) (v : Nat) : (s.setFld f v).badWords = s.badWords := rfl
@[simp] theorem State.setFld_wbacks (f : Fld) (v : Nat) : (s.setFld f v).wbacks = s.wbacks := rfl
@[simp] theorem State.setFld_rereads (f : Fld) (v : Nat) : (s.setFld f v).rereads = s.rereads := rfl
@[simp] theorem State.setFld_scrub (f : Fld) (v : Nat) : (s.setFld f v).scrub = s.scrub := rfl
@[simp] theorem State.setFld_chk (f : Fld) (v : Nat) : (s.setFld f v).chk = s.chk := rfl
@[simp] theorem State.setFld_scan (f : Fld) (v : Nat) : (s.setFld f v).scan = s.scan := rfl
@[simp] theorem State.setFld_sealSnap (f : Fld) (v : Nat) : (s.setFld f v).sealSnap = s.sealSnap := rfl
@[simp] theorem State.setFld_audio (f : Fld) (v : Nat) : (s.setFld f v).audio = s.audio := rfl
@[simp] theorem State.setFld_pending (f : Fld) (v : Nat) : (s.setFld f v).pending = s.pending := rfl

/-! ### A shadow copy written -/

@[simp] theorem State.setShadow_regs (k : Nat) (v : Reg) : (s.setShadow k v).regs = s.regs := rfl
@[simp] theorem State.setShadow_acc (k : Nat) (v : Reg) : (s.setShadow k v).acc = s.acc := rfl
@[simp] theorem State.setShadow_hbm (k : Nat) (v : Reg) : (s.setShadow k v).hbm = s.hbm := rfl
@[simp] theorem State.setShadow_gallery (k : Nat) (v : Reg) : (s.setShadow k v).gallery = s.gallery := rfl
@[simp] theorem State.setShadow_engineCode (k : Nat) (v : Reg) : (s.setShadow k v).engineCode = s.engineCode := rfl
@[simp] theorem State.setShadow_timeCode (k : Nat) (v : Reg) : (s.setShadow k v).timeCode = s.timeCode := rfl
@[simp] theorem State.setShadow_host (k : Nat) (v : Reg) : (s.setShadow k v).host = s.host := rfl
@[simp] theorem State.setShadow_otp (k : Nat) (v : Reg) : (s.setShadow k v).otp = s.otp := rfl
@[simp] theorem State.setShadow_cyc (k : Nat) (v : Reg) : (s.setShadow k v).cyc = s.cyc := rfl
@[simp] theorem State.setShadow_ctr (k : Nat) (v : Reg) : (s.setShadow k v).ctr = s.ctr := rfl
@[simp] theorem State.setShadow_valid (k : Nat) (v : Reg) : (s.setShadow k v).valid = s.valid := rfl
@[simp] theorem State.setShadow_free (k : Nat) (v : Reg) : (s.setShadow k v).free = s.free := rfl
@[simp] theorem State.setShadow_attnGen (k : Nat) (v : Reg) : (s.setShadow k v).attnGen = s.attnGen := rfl
@[simp] theorem State.setShadow_ready (k : Nat) (v : Reg) : (s.setShadow k v).ready = s.ready := rfl
@[simp] theorem State.setShadow_pins (k : Nat) (v : Reg) : (s.setShadow k v).pins = s.pins := rfl
@[simp] theorem State.setShadow_pwr (k : Nat) (v : Reg) : (s.setShadow k v).pwr = s.pwr := rfl
@[simp] theorem State.setShadow_kpr (k : Nat) (v : Reg) : (s.setShadow k v).kpr = s.kpr := rfl
@[simp] theorem State.setShadow_boot (k : Nat) (v : Reg) : (s.setShadow k v).boot = s.boot := rfl
@[simp] theorem State.setShadow_sec (k : Nat) (v : Reg) : (s.setShadow k v).sec = s.sec := rfl
@[simp] theorem State.setShadow_hif (k : Nat) (v : Reg) : (s.setShadow k v).hif = s.hif := rfl
@[simp] theorem State.setShadow_pci (k : Nat) (v : Reg) : (s.setShadow k v).pci = s.pci := rfl
@[simp] theorem State.setShadow_replies (k : Nat) (v : Reg) : (s.setShadow k v).replies = s.replies := rfl
@[simp] theorem State.setShadow_masters (k : Nat) (v : Reg) : (s.setShadow k v).masters = s.masters := rfl
@[simp] theorem State.setShadow_servo (k : Nat) (v : Reg) : (s.setShadow k v).servo = s.servo := rfl
@[simp] theorem State.setShadow_refMon (k : Nat) (v : Reg) : (s.setShadow k v).refMon = s.refMon := rfl
@[simp] theorem State.setShadow_clk (k : Nat) (v : Reg) : (s.setShadow k v).clk = s.clk := rfl
@[simp] theorem State.setShadow_lanes (k : Nat) (v : Reg) : (s.setShadow k v).lanes = s.lanes := rfl
@[simp] theorem State.setShadow_subs (k : Nat) (v : Reg) : (s.setShadow k v).subs = s.subs := rfl
@[simp] theorem State.setShadow_slots (k : Nat) (v : Reg) : (s.setShadow k v).slots = s.slots := rfl
@[simp] theorem State.setShadow_flows (k : Nat) (v : Reg) : (s.setShadow k v).flows = s.flows := rfl
@[simp] theorem State.setShadow_anc (k : Nat) (v : Reg) : (s.setShadow k v).anc = s.anc := rfl
@[simp] theorem State.setShadow_source (k : Nat) (v : Reg) : (s.setShadow k v).source = s.source := rfl
@[simp] theorem State.setShadow_stats (k : Nat) (v : Reg) : (s.setShadow k v).stats = s.stats := rfl
@[simp] theorem State.setShadow_span (k : Nat) (v : Reg) : (s.setShadow k v).span = s.span := rfl
@[simp] theorem State.setShadow_held (k : Nat) (v : Reg) : (s.setShadow k v).held = s.held := rfl
@[simp] theorem State.setShadow_tasks (k : Nat) (v : Reg) : (s.setShadow k v).tasks = s.tasks := rfl
@[simp] theorem State.setShadow_passes (k : Nat) (v : Reg) : (s.setShadow k v).passes = s.passes := rfl
@[simp] theorem State.setShadow_quarter (k : Nat) (v : Reg) : (s.setShadow k v).quarter = s.quarter := rfl
@[simp] theorem State.setShadow_records (k : Nat) (v : Reg) : (s.setShadow k v).records = s.records := rfl
@[simp] theorem State.setShadow_summary (k : Nat) (v : Reg) : (s.setShadow k v).summary = s.summary := rfl
@[simp] theorem State.setShadow_copies (k : Nat) (v : Reg) : (s.setShadow k v).copies = s.copies := rfl
@[simp] theorem State.setShadow_luts (k : Nat) (v : Reg) : (s.setShadow k v).luts = s.luts := rfl
@[simp] theorem State.setShadow_lutBad (k : Nat) (v : Reg) : (s.setShadow k v).lutBad = s.lutBad := rfl
@[simp] theorem State.setShadow_loads (k : Nat) (v : Reg) : (s.setShadow k v).loads = s.loads := rfl
@[simp] theorem State.setShadow_tags (k : Nat) (v : Reg) : (s.setShadow k v).tags = s.tags := rfl
@[simp] theorem State.setShadow_order (k : Nat) (v : Reg) : (s.setShadow k v).order = s.order := rfl
@[simp] theorem State.setShadow_outs (k : Nat) (v : Reg) : (s.setShadow k v).outs = s.outs := rfl
@[simp] theorem State.setShadow_bays (k : Nat) (v : Reg) : (s.setShadow k v).bays = s.bays := rfl
@[simp] theorem State.setShadow_bayLog (k : Nat) (v : Reg) : (s.setShadow k v).bayLog = s.bayLog := rfl
@[simp] theorem State.setShadow_mzeLog (k : Nat) (v : Reg) : (s.setShadow k v).mzeLog = s.mzeLog := rfl
@[simp] theorem State.setShadow_floors (k : Nat) (v : Reg) : (s.setShadow k v).floors = s.floors := rfl
@[simp] theorem State.setShadow_floorQ (k : Nat) (v : Reg) : (s.setShadow k v).floorQ = s.floorQ := rfl
@[simp] theorem State.setShadow_regions (k : Nat) (v : Reg) : (s.setShadow k v).regions = s.regions := rfl
@[simp] theorem State.setShadow_slices (k : Nat) (v : Reg) : (s.setShadow k v).slices = s.slices := rfl
@[simp] theorem State.setShadow_maps (k : Nat) (v : Reg) : (s.setShadow k v).maps = s.maps := rfl
@[simp] theorem State.setShadow_queues (k : Nat) (v : Reg) : (s.setShadow k v).queues = s.queues := rfl
@[simp] theorem State.setShadow_buckets (k : Nat) (v : Reg) : (s.setShadow k v).buckets = s.buckets := rfl
@[simp] theorem State.setShadow_svcs (k : Nat) (v : Reg) : (s.setShadow k v).svcs = s.svcs := rfl
@[simp] theorem State.setShadow_ports (k : Nat) (v : Reg) : (s.setShadow k v).ports = s.ports := rfl
@[simp] theorem State.setShadow_rates (k : Nat) (v : Reg) : (s.setShadow k v).rates = s.rates := rfl
@[simp] theorem State.setShadow_pcs (k : Nat) (v : Reg) : (s.setShadow k v).pcs = s.pcs := rfl
@[simp] theorem State.setShadow_poison (k : Nat) (v : Reg) : (s.setShadow k v).poison = s.poison := rfl
@[simp] theorem State.setShadow_badWords (k : Nat) (v : Reg) : (s.setShadow k v).badWords = s.badWords := rfl
@[simp] theorem State.setShadow_wbacks (k : Nat) (v : Reg) : (s.setShadow k v).wbacks = s.wbacks := rfl
@[simp] theorem State.setShadow_rereads (k : Nat) (v : Reg) : (s.setShadow k v).rereads = s.rereads := rfl
@[simp] theorem State.setShadow_scrub (k : Nat) (v : Reg) : (s.setShadow k v).scrub = s.scrub := rfl
@[simp] theorem State.setShadow_chk (k : Nat) (v : Reg) : (s.setShadow k v).chk = s.chk := rfl
@[simp] theorem State.setShadow_scan (k : Nat) (v : Reg) : (s.setShadow k v).scan = s.scan := rfl
@[simp] theorem State.setShadow_sealSnap (k : Nat) (v : Reg) : (s.setShadow k v).sealSnap = s.sealSnap := rfl
@[simp] theorem State.setShadow_audio (k : Nat) (v : Reg) : (s.setShadow k v).audio = s.audio := rfl
@[simp] theorem State.setShadow_pending (k : Nat) (v : Reg) : (s.setShadow k v).pending = s.pending := rfl

/-! ### A field of a shadow copy written -/

@[simp] theorem State.setShFld_regs (f : Fld) (v : Nat) : (s.setShFld f v).regs = s.regs := rfl
@[simp] theorem State.setShFld_acc (f : Fld) (v : Nat) : (s.setShFld f v).acc = s.acc := rfl
@[simp] theorem State.setShFld_hbm (f : Fld) (v : Nat) : (s.setShFld f v).hbm = s.hbm := rfl
@[simp] theorem State.setShFld_gallery (f : Fld) (v : Nat) : (s.setShFld f v).gallery = s.gallery := rfl
@[simp] theorem State.setShFld_engineCode (f : Fld) (v : Nat) : (s.setShFld f v).engineCode = s.engineCode := rfl
@[simp] theorem State.setShFld_timeCode (f : Fld) (v : Nat) : (s.setShFld f v).timeCode = s.timeCode := rfl
@[simp] theorem State.setShFld_host (f : Fld) (v : Nat) : (s.setShFld f v).host = s.host := rfl
@[simp] theorem State.setShFld_otp (f : Fld) (v : Nat) : (s.setShFld f v).otp = s.otp := rfl
@[simp] theorem State.setShFld_cyc (f : Fld) (v : Nat) : (s.setShFld f v).cyc = s.cyc := rfl
@[simp] theorem State.setShFld_ctr (f : Fld) (v : Nat) : (s.setShFld f v).ctr = s.ctr := rfl
@[simp] theorem State.setShFld_valid (f : Fld) (v : Nat) : (s.setShFld f v).valid = s.valid := rfl
@[simp] theorem State.setShFld_free (f : Fld) (v : Nat) : (s.setShFld f v).free = s.free := rfl
@[simp] theorem State.setShFld_attnGen (f : Fld) (v : Nat) : (s.setShFld f v).attnGen = s.attnGen := rfl
@[simp] theorem State.setShFld_ready (f : Fld) (v : Nat) : (s.setShFld f v).ready = s.ready := rfl
@[simp] theorem State.setShFld_pins (f : Fld) (v : Nat) : (s.setShFld f v).pins = s.pins := rfl
@[simp] theorem State.setShFld_pwr (f : Fld) (v : Nat) : (s.setShFld f v).pwr = s.pwr := rfl
@[simp] theorem State.setShFld_kpr (f : Fld) (v : Nat) : (s.setShFld f v).kpr = s.kpr := rfl
@[simp] theorem State.setShFld_boot (f : Fld) (v : Nat) : (s.setShFld f v).boot = s.boot := rfl
@[simp] theorem State.setShFld_sec (f : Fld) (v : Nat) : (s.setShFld f v).sec = s.sec := rfl
@[simp] theorem State.setShFld_hif (f : Fld) (v : Nat) : (s.setShFld f v).hif = s.hif := rfl
@[simp] theorem State.setShFld_pci (f : Fld) (v : Nat) : (s.setShFld f v).pci = s.pci := rfl
@[simp] theorem State.setShFld_replies (f : Fld) (v : Nat) : (s.setShFld f v).replies = s.replies := rfl
@[simp] theorem State.setShFld_masters (f : Fld) (v : Nat) : (s.setShFld f v).masters = s.masters := rfl
@[simp] theorem State.setShFld_servo (f : Fld) (v : Nat) : (s.setShFld f v).servo = s.servo := rfl
@[simp] theorem State.setShFld_refMon (f : Fld) (v : Nat) : (s.setShFld f v).refMon = s.refMon := rfl
@[simp] theorem State.setShFld_clk (f : Fld) (v : Nat) : (s.setShFld f v).clk = s.clk := rfl
@[simp] theorem State.setShFld_lanes (f : Fld) (v : Nat) : (s.setShFld f v).lanes = s.lanes := rfl
@[simp] theorem State.setShFld_subs (f : Fld) (v : Nat) : (s.setShFld f v).subs = s.subs := rfl
@[simp] theorem State.setShFld_slots (f : Fld) (v : Nat) : (s.setShFld f v).slots = s.slots := rfl
@[simp] theorem State.setShFld_flows (f : Fld) (v : Nat) : (s.setShFld f v).flows = s.flows := rfl
@[simp] theorem State.setShFld_anc (f : Fld) (v : Nat) : (s.setShFld f v).anc = s.anc := rfl
@[simp] theorem State.setShFld_source (f : Fld) (v : Nat) : (s.setShFld f v).source = s.source := rfl
@[simp] theorem State.setShFld_stats (f : Fld) (v : Nat) : (s.setShFld f v).stats = s.stats := rfl
@[simp] theorem State.setShFld_span (f : Fld) (v : Nat) : (s.setShFld f v).span = s.span := rfl
@[simp] theorem State.setShFld_held (f : Fld) (v : Nat) : (s.setShFld f v).held = s.held := rfl
@[simp] theorem State.setShFld_tasks (f : Fld) (v : Nat) : (s.setShFld f v).tasks = s.tasks := rfl
@[simp] theorem State.setShFld_passes (f : Fld) (v : Nat) : (s.setShFld f v).passes = s.passes := rfl
@[simp] theorem State.setShFld_quarter (f : Fld) (v : Nat) : (s.setShFld f v).quarter = s.quarter := rfl
@[simp] theorem State.setShFld_records (f : Fld) (v : Nat) : (s.setShFld f v).records = s.records := rfl
@[simp] theorem State.setShFld_summary (f : Fld) (v : Nat) : (s.setShFld f v).summary = s.summary := rfl
@[simp] theorem State.setShFld_copies (f : Fld) (v : Nat) : (s.setShFld f v).copies = s.copies := rfl
@[simp] theorem State.setShFld_luts (f : Fld) (v : Nat) : (s.setShFld f v).luts = s.luts := rfl
@[simp] theorem State.setShFld_lutBad (f : Fld) (v : Nat) : (s.setShFld f v).lutBad = s.lutBad := rfl
@[simp] theorem State.setShFld_loads (f : Fld) (v : Nat) : (s.setShFld f v).loads = s.loads := rfl
@[simp] theorem State.setShFld_tags (f : Fld) (v : Nat) : (s.setShFld f v).tags = s.tags := rfl
@[simp] theorem State.setShFld_order (f : Fld) (v : Nat) : (s.setShFld f v).order = s.order := rfl
@[simp] theorem State.setShFld_outs (f : Fld) (v : Nat) : (s.setShFld f v).outs = s.outs := rfl
@[simp] theorem State.setShFld_bays (f : Fld) (v : Nat) : (s.setShFld f v).bays = s.bays := rfl
@[simp] theorem State.setShFld_bayLog (f : Fld) (v : Nat) : (s.setShFld f v).bayLog = s.bayLog := rfl
@[simp] theorem State.setShFld_mzeLog (f : Fld) (v : Nat) : (s.setShFld f v).mzeLog = s.mzeLog := rfl
@[simp] theorem State.setShFld_floors (f : Fld) (v : Nat) : (s.setShFld f v).floors = s.floors := rfl
@[simp] theorem State.setShFld_floorQ (f : Fld) (v : Nat) : (s.setShFld f v).floorQ = s.floorQ := rfl
@[simp] theorem State.setShFld_regions (f : Fld) (v : Nat) : (s.setShFld f v).regions = s.regions := rfl
@[simp] theorem State.setShFld_slices (f : Fld) (v : Nat) : (s.setShFld f v).slices = s.slices := rfl
@[simp] theorem State.setShFld_maps (f : Fld) (v : Nat) : (s.setShFld f v).maps = s.maps := rfl
@[simp] theorem State.setShFld_queues (f : Fld) (v : Nat) : (s.setShFld f v).queues = s.queues := rfl
@[simp] theorem State.setShFld_buckets (f : Fld) (v : Nat) : (s.setShFld f v).buckets = s.buckets := rfl
@[simp] theorem State.setShFld_svcs (f : Fld) (v : Nat) : (s.setShFld f v).svcs = s.svcs := rfl
@[simp] theorem State.setShFld_ports (f : Fld) (v : Nat) : (s.setShFld f v).ports = s.ports := rfl
@[simp] theorem State.setShFld_rates (f : Fld) (v : Nat) : (s.setShFld f v).rates = s.rates := rfl
@[simp] theorem State.setShFld_pcs (f : Fld) (v : Nat) : (s.setShFld f v).pcs = s.pcs := rfl
@[simp] theorem State.setShFld_poison (f : Fld) (v : Nat) : (s.setShFld f v).poison = s.poison := rfl
@[simp] theorem State.setShFld_badWords (f : Fld) (v : Nat) : (s.setShFld f v).badWords = s.badWords := rfl
@[simp] theorem State.setShFld_wbacks (f : Fld) (v : Nat) : (s.setShFld f v).wbacks = s.wbacks := rfl
@[simp] theorem State.setShFld_rereads (f : Fld) (v : Nat) : (s.setShFld f v).rereads = s.rereads := rfl
@[simp] theorem State.setShFld_scrub (f : Fld) (v : Nat) : (s.setShFld f v).scrub = s.scrub := rfl
@[simp] theorem State.setShFld_chk (f : Fld) (v : Nat) : (s.setShFld f v).chk = s.chk := rfl
@[simp] theorem State.setShFld_scan (f : Fld) (v : Nat) : (s.setShFld f v).scan = s.scan := rfl
@[simp] theorem State.setShFld_sealSnap (f : Fld) (v : Nat) : (s.setShFld f v).sealSnap = s.sealSnap := rfl
@[simp] theorem State.setShFld_audio (f : Fld) (v : Nat) : (s.setShFld f v).audio = s.audio := rfl
@[simp] theorem State.setShFld_pending (f : Fld) (v : Nat) : (s.setShFld f v).pending = s.pending := rfl

/-! ### A saturating count -/

@[simp] theorem State.satFld_shadow (f : Fld) (n : Nat) : (s.satFld f n).shadow = s.shadow := rfl
@[simp] theorem State.satFld_acc (f : Fld) (n : Nat) : (s.satFld f n).acc = s.acc := rfl
@[simp] theorem State.satFld_hbm (f : Fld) (n : Nat) : (s.satFld f n).hbm = s.hbm := rfl
@[simp] theorem State.satFld_gallery (f : Fld) (n : Nat) : (s.satFld f n).gallery = s.gallery := rfl
@[simp] theorem State.satFld_engineCode (f : Fld) (n : Nat) : (s.satFld f n).engineCode = s.engineCode := rfl
@[simp] theorem State.satFld_timeCode (f : Fld) (n : Nat) : (s.satFld f n).timeCode = s.timeCode := rfl
@[simp] theorem State.satFld_host (f : Fld) (n : Nat) : (s.satFld f n).host = s.host := rfl
@[simp] theorem State.satFld_otp (f : Fld) (n : Nat) : (s.satFld f n).otp = s.otp := rfl
@[simp] theorem State.satFld_cyc (f : Fld) (n : Nat) : (s.satFld f n).cyc = s.cyc := rfl
@[simp] theorem State.satFld_ctr (f : Fld) (n : Nat) : (s.satFld f n).ctr = s.ctr := rfl
@[simp] theorem State.satFld_valid (f : Fld) (n : Nat) : (s.satFld f n).valid = s.valid := rfl
@[simp] theorem State.satFld_free (f : Fld) (n : Nat) : (s.satFld f n).free = s.free := rfl
@[simp] theorem State.satFld_attnGen (f : Fld) (n : Nat) : (s.satFld f n).attnGen = s.attnGen := rfl
@[simp] theorem State.satFld_ready (f : Fld) (n : Nat) : (s.satFld f n).ready = s.ready := rfl
@[simp] theorem State.satFld_pins (f : Fld) (n : Nat) : (s.satFld f n).pins = s.pins := rfl
@[simp] theorem State.satFld_pwr (f : Fld) (n : Nat) : (s.satFld f n).pwr = s.pwr := rfl
@[simp] theorem State.satFld_kpr (f : Fld) (n : Nat) : (s.satFld f n).kpr = s.kpr := rfl
@[simp] theorem State.satFld_boot (f : Fld) (n : Nat) : (s.satFld f n).boot = s.boot := rfl
@[simp] theorem State.satFld_sec (f : Fld) (n : Nat) : (s.satFld f n).sec = s.sec := rfl
@[simp] theorem State.satFld_hif (f : Fld) (n : Nat) : (s.satFld f n).hif = s.hif := rfl
@[simp] theorem State.satFld_pci (f : Fld) (n : Nat) : (s.satFld f n).pci = s.pci := rfl
@[simp] theorem State.satFld_replies (f : Fld) (n : Nat) : (s.satFld f n).replies = s.replies := rfl
@[simp] theorem State.satFld_masters (f : Fld) (n : Nat) : (s.satFld f n).masters = s.masters := rfl
@[simp] theorem State.satFld_servo (f : Fld) (n : Nat) : (s.satFld f n).servo = s.servo := rfl
@[simp] theorem State.satFld_refMon (f : Fld) (n : Nat) : (s.satFld f n).refMon = s.refMon := rfl
@[simp] theorem State.satFld_clk (f : Fld) (n : Nat) : (s.satFld f n).clk = s.clk := rfl
@[simp] theorem State.satFld_lanes (f : Fld) (n : Nat) : (s.satFld f n).lanes = s.lanes := rfl
@[simp] theorem State.satFld_subs (f : Fld) (n : Nat) : (s.satFld f n).subs = s.subs := rfl
@[simp] theorem State.satFld_slots (f : Fld) (n : Nat) : (s.satFld f n).slots = s.slots := rfl
@[simp] theorem State.satFld_flows (f : Fld) (n : Nat) : (s.satFld f n).flows = s.flows := rfl
@[simp] theorem State.satFld_anc (f : Fld) (n : Nat) : (s.satFld f n).anc = s.anc := rfl
@[simp] theorem State.satFld_source (f : Fld) (n : Nat) : (s.satFld f n).source = s.source := rfl
@[simp] theorem State.satFld_stats (f : Fld) (n : Nat) : (s.satFld f n).stats = s.stats := rfl
@[simp] theorem State.satFld_span (f : Fld) (n : Nat) : (s.satFld f n).span = s.span := rfl
@[simp] theorem State.satFld_held (f : Fld) (n : Nat) : (s.satFld f n).held = s.held := rfl
@[simp] theorem State.satFld_tasks (f : Fld) (n : Nat) : (s.satFld f n).tasks = s.tasks := rfl
@[simp] theorem State.satFld_passes (f : Fld) (n : Nat) : (s.satFld f n).passes = s.passes := rfl
@[simp] theorem State.satFld_quarter (f : Fld) (n : Nat) : (s.satFld f n).quarter = s.quarter := rfl
@[simp] theorem State.satFld_records (f : Fld) (n : Nat) : (s.satFld f n).records = s.records := rfl
@[simp] theorem State.satFld_summary (f : Fld) (n : Nat) : (s.satFld f n).summary = s.summary := rfl
@[simp] theorem State.satFld_copies (f : Fld) (n : Nat) : (s.satFld f n).copies = s.copies := rfl
@[simp] theorem State.satFld_luts (f : Fld) (n : Nat) : (s.satFld f n).luts = s.luts := rfl
@[simp] theorem State.satFld_lutBad (f : Fld) (n : Nat) : (s.satFld f n).lutBad = s.lutBad := rfl
@[simp] theorem State.satFld_loads (f : Fld) (n : Nat) : (s.satFld f n).loads = s.loads := rfl
@[simp] theorem State.satFld_tags (f : Fld) (n : Nat) : (s.satFld f n).tags = s.tags := rfl
@[simp] theorem State.satFld_order (f : Fld) (n : Nat) : (s.satFld f n).order = s.order := rfl
@[simp] theorem State.satFld_outs (f : Fld) (n : Nat) : (s.satFld f n).outs = s.outs := rfl
@[simp] theorem State.satFld_bays (f : Fld) (n : Nat) : (s.satFld f n).bays = s.bays := rfl
@[simp] theorem State.satFld_bayLog (f : Fld) (n : Nat) : (s.satFld f n).bayLog = s.bayLog := rfl
@[simp] theorem State.satFld_mzeLog (f : Fld) (n : Nat) : (s.satFld f n).mzeLog = s.mzeLog := rfl
@[simp] theorem State.satFld_floors (f : Fld) (n : Nat) : (s.satFld f n).floors = s.floors := rfl
@[simp] theorem State.satFld_floorQ (f : Fld) (n : Nat) : (s.satFld f n).floorQ = s.floorQ := rfl
@[simp] theorem State.satFld_regions (f : Fld) (n : Nat) : (s.satFld f n).regions = s.regions := rfl
@[simp] theorem State.satFld_slices (f : Fld) (n : Nat) : (s.satFld f n).slices = s.slices := rfl
@[simp] theorem State.satFld_maps (f : Fld) (n : Nat) : (s.satFld f n).maps = s.maps := rfl
@[simp] theorem State.satFld_queues (f : Fld) (n : Nat) : (s.satFld f n).queues = s.queues := rfl
@[simp] theorem State.satFld_buckets (f : Fld) (n : Nat) : (s.satFld f n).buckets = s.buckets := rfl
@[simp] theorem State.satFld_svcs (f : Fld) (n : Nat) : (s.satFld f n).svcs = s.svcs := rfl
@[simp] theorem State.satFld_ports (f : Fld) (n : Nat) : (s.satFld f n).ports = s.ports := rfl
@[simp] theorem State.satFld_rates (f : Fld) (n : Nat) : (s.satFld f n).rates = s.rates := rfl
@[simp] theorem State.satFld_pcs (f : Fld) (n : Nat) : (s.satFld f n).pcs = s.pcs := rfl
@[simp] theorem State.satFld_poison (f : Fld) (n : Nat) : (s.satFld f n).poison = s.poison := rfl
@[simp] theorem State.satFld_badWords (f : Fld) (n : Nat) : (s.satFld f n).badWords = s.badWords := rfl
@[simp] theorem State.satFld_wbacks (f : Fld) (n : Nat) : (s.satFld f n).wbacks = s.wbacks := rfl
@[simp] theorem State.satFld_rereads (f : Fld) (n : Nat) : (s.satFld f n).rereads = s.rereads := rfl
@[simp] theorem State.satFld_scrub (f : Fld) (n : Nat) : (s.satFld f n).scrub = s.scrub := rfl
@[simp] theorem State.satFld_chk (f : Fld) (n : Nat) : (s.satFld f n).chk = s.chk := rfl
@[simp] theorem State.satFld_scan (f : Fld) (n : Nat) : (s.satFld f n).scan = s.scan := rfl
@[simp] theorem State.satFld_sealSnap (f : Fld) (n : Nat) : (s.satFld f n).sealSnap = s.sealSnap := rfl
@[simp] theorem State.satFld_audio (f : Fld) (n : Nat) : (s.satFld f n).audio = s.audio := rfl
@[simp] theorem State.satFld_pending (f : Fld) (n : Nat) : (s.satFld f n).pending = s.pending := rfl

/-! ### A wrapping count -/

@[simp] theorem State.wrapFld_shadow (f : Fld) (n : Nat) : (s.wrapFld f n).shadow = s.shadow := rfl
@[simp] theorem State.wrapFld_acc (f : Fld) (n : Nat) : (s.wrapFld f n).acc = s.acc := rfl
@[simp] theorem State.wrapFld_hbm (f : Fld) (n : Nat) : (s.wrapFld f n).hbm = s.hbm := rfl
@[simp] theorem State.wrapFld_gallery (f : Fld) (n : Nat) : (s.wrapFld f n).gallery = s.gallery := rfl
@[simp] theorem State.wrapFld_engineCode (f : Fld) (n : Nat) : (s.wrapFld f n).engineCode = s.engineCode := rfl
@[simp] theorem State.wrapFld_timeCode (f : Fld) (n : Nat) : (s.wrapFld f n).timeCode = s.timeCode := rfl
@[simp] theorem State.wrapFld_host (f : Fld) (n : Nat) : (s.wrapFld f n).host = s.host := rfl
@[simp] theorem State.wrapFld_otp (f : Fld) (n : Nat) : (s.wrapFld f n).otp = s.otp := rfl
@[simp] theorem State.wrapFld_cyc (f : Fld) (n : Nat) : (s.wrapFld f n).cyc = s.cyc := rfl
@[simp] theorem State.wrapFld_ctr (f : Fld) (n : Nat) : (s.wrapFld f n).ctr = s.ctr := rfl
@[simp] theorem State.wrapFld_valid (f : Fld) (n : Nat) : (s.wrapFld f n).valid = s.valid := rfl
@[simp] theorem State.wrapFld_free (f : Fld) (n : Nat) : (s.wrapFld f n).free = s.free := rfl
@[simp] theorem State.wrapFld_attnGen (f : Fld) (n : Nat) : (s.wrapFld f n).attnGen = s.attnGen := rfl
@[simp] theorem State.wrapFld_ready (f : Fld) (n : Nat) : (s.wrapFld f n).ready = s.ready := rfl
@[simp] theorem State.wrapFld_pins (f : Fld) (n : Nat) : (s.wrapFld f n).pins = s.pins := rfl
@[simp] theorem State.wrapFld_pwr (f : Fld) (n : Nat) : (s.wrapFld f n).pwr = s.pwr := rfl
@[simp] theorem State.wrapFld_kpr (f : Fld) (n : Nat) : (s.wrapFld f n).kpr = s.kpr := rfl
@[simp] theorem State.wrapFld_boot (f : Fld) (n : Nat) : (s.wrapFld f n).boot = s.boot := rfl
@[simp] theorem State.wrapFld_sec (f : Fld) (n : Nat) : (s.wrapFld f n).sec = s.sec := rfl
@[simp] theorem State.wrapFld_hif (f : Fld) (n : Nat) : (s.wrapFld f n).hif = s.hif := rfl
@[simp] theorem State.wrapFld_pci (f : Fld) (n : Nat) : (s.wrapFld f n).pci = s.pci := rfl
@[simp] theorem State.wrapFld_replies (f : Fld) (n : Nat) : (s.wrapFld f n).replies = s.replies := rfl
@[simp] theorem State.wrapFld_masters (f : Fld) (n : Nat) : (s.wrapFld f n).masters = s.masters := rfl
@[simp] theorem State.wrapFld_servo (f : Fld) (n : Nat) : (s.wrapFld f n).servo = s.servo := rfl
@[simp] theorem State.wrapFld_refMon (f : Fld) (n : Nat) : (s.wrapFld f n).refMon = s.refMon := rfl
@[simp] theorem State.wrapFld_clk (f : Fld) (n : Nat) : (s.wrapFld f n).clk = s.clk := rfl
@[simp] theorem State.wrapFld_lanes (f : Fld) (n : Nat) : (s.wrapFld f n).lanes = s.lanes := rfl
@[simp] theorem State.wrapFld_subs (f : Fld) (n : Nat) : (s.wrapFld f n).subs = s.subs := rfl
@[simp] theorem State.wrapFld_slots (f : Fld) (n : Nat) : (s.wrapFld f n).slots = s.slots := rfl
@[simp] theorem State.wrapFld_flows (f : Fld) (n : Nat) : (s.wrapFld f n).flows = s.flows := rfl
@[simp] theorem State.wrapFld_anc (f : Fld) (n : Nat) : (s.wrapFld f n).anc = s.anc := rfl
@[simp] theorem State.wrapFld_source (f : Fld) (n : Nat) : (s.wrapFld f n).source = s.source := rfl
@[simp] theorem State.wrapFld_stats (f : Fld) (n : Nat) : (s.wrapFld f n).stats = s.stats := rfl
@[simp] theorem State.wrapFld_span (f : Fld) (n : Nat) : (s.wrapFld f n).span = s.span := rfl
@[simp] theorem State.wrapFld_held (f : Fld) (n : Nat) : (s.wrapFld f n).held = s.held := rfl
@[simp] theorem State.wrapFld_tasks (f : Fld) (n : Nat) : (s.wrapFld f n).tasks = s.tasks := rfl
@[simp] theorem State.wrapFld_passes (f : Fld) (n : Nat) : (s.wrapFld f n).passes = s.passes := rfl
@[simp] theorem State.wrapFld_quarter (f : Fld) (n : Nat) : (s.wrapFld f n).quarter = s.quarter := rfl
@[simp] theorem State.wrapFld_records (f : Fld) (n : Nat) : (s.wrapFld f n).records = s.records := rfl
@[simp] theorem State.wrapFld_summary (f : Fld) (n : Nat) : (s.wrapFld f n).summary = s.summary := rfl
@[simp] theorem State.wrapFld_copies (f : Fld) (n : Nat) : (s.wrapFld f n).copies = s.copies := rfl
@[simp] theorem State.wrapFld_luts (f : Fld) (n : Nat) : (s.wrapFld f n).luts = s.luts := rfl
@[simp] theorem State.wrapFld_lutBad (f : Fld) (n : Nat) : (s.wrapFld f n).lutBad = s.lutBad := rfl
@[simp] theorem State.wrapFld_loads (f : Fld) (n : Nat) : (s.wrapFld f n).loads = s.loads := rfl
@[simp] theorem State.wrapFld_tags (f : Fld) (n : Nat) : (s.wrapFld f n).tags = s.tags := rfl
@[simp] theorem State.wrapFld_order (f : Fld) (n : Nat) : (s.wrapFld f n).order = s.order := rfl
@[simp] theorem State.wrapFld_outs (f : Fld) (n : Nat) : (s.wrapFld f n).outs = s.outs := rfl
@[simp] theorem State.wrapFld_bays (f : Fld) (n : Nat) : (s.wrapFld f n).bays = s.bays := rfl
@[simp] theorem State.wrapFld_bayLog (f : Fld) (n : Nat) : (s.wrapFld f n).bayLog = s.bayLog := rfl
@[simp] theorem State.wrapFld_mzeLog (f : Fld) (n : Nat) : (s.wrapFld f n).mzeLog = s.mzeLog := rfl
@[simp] theorem State.wrapFld_floors (f : Fld) (n : Nat) : (s.wrapFld f n).floors = s.floors := rfl
@[simp] theorem State.wrapFld_floorQ (f : Fld) (n : Nat) : (s.wrapFld f n).floorQ = s.floorQ := rfl
@[simp] theorem State.wrapFld_regions (f : Fld) (n : Nat) : (s.wrapFld f n).regions = s.regions := rfl
@[simp] theorem State.wrapFld_slices (f : Fld) (n : Nat) : (s.wrapFld f n).slices = s.slices := rfl
@[simp] theorem State.wrapFld_maps (f : Fld) (n : Nat) : (s.wrapFld f n).maps = s.maps := rfl
@[simp] theorem State.wrapFld_queues (f : Fld) (n : Nat) : (s.wrapFld f n).queues = s.queues := rfl
@[simp] theorem State.wrapFld_buckets (f : Fld) (n : Nat) : (s.wrapFld f n).buckets = s.buckets := rfl
@[simp] theorem State.wrapFld_svcs (f : Fld) (n : Nat) : (s.wrapFld f n).svcs = s.svcs := rfl
@[simp] theorem State.wrapFld_ports (f : Fld) (n : Nat) : (s.wrapFld f n).ports = s.ports := rfl
@[simp] theorem State.wrapFld_rates (f : Fld) (n : Nat) : (s.wrapFld f n).rates = s.rates := rfl
@[simp] theorem State.wrapFld_pcs (f : Fld) (n : Nat) : (s.wrapFld f n).pcs = s.pcs := rfl
@[simp] theorem State.wrapFld_poison (f : Fld) (n : Nat) : (s.wrapFld f n).poison = s.poison := rfl
@[simp] theorem State.wrapFld_badWords (f : Fld) (n : Nat) : (s.wrapFld f n).badWords = s.badWords := rfl
@[simp] theorem State.wrapFld_wbacks (f : Fld) (n : Nat) : (s.wrapFld f n).wbacks = s.wbacks := rfl
@[simp] theorem State.wrapFld_rereads (f : Fld) (n : Nat) : (s.wrapFld f n).rereads = s.rereads := rfl
@[simp] theorem State.wrapFld_scrub (f : Fld) (n : Nat) : (s.wrapFld f n).scrub = s.scrub := rfl
@[simp] theorem State.wrapFld_chk (f : Fld) (n : Nat) : (s.wrapFld f n).chk = s.chk := rfl
@[simp] theorem State.wrapFld_scan (f : Fld) (n : Nat) : (s.wrapFld f n).scan = s.scan := rfl
@[simp] theorem State.wrapFld_sealSnap (f : Fld) (n : Nat) : (s.wrapFld f n).sealSnap = s.sealSnap := rfl
@[simp] theorem State.wrapFld_audio (f : Fld) (n : Nat) : (s.wrapFld f n).audio = s.audio := rfl
@[simp] theorem State.wrapFld_pending (f : Fld) (n : Nat) : (s.wrapFld f n).pending = s.pending := rfl

/-! ### A running count written -/

@[simp] theorem State.setAcc_regs (k v : Nat) : (s.setAcc k v).regs = s.regs := rfl
@[simp] theorem State.setAcc_shadow (k v : Nat) : (s.setAcc k v).shadow = s.shadow := rfl
@[simp] theorem State.setAcc_hbm (k v : Nat) : (s.setAcc k v).hbm = s.hbm := rfl
@[simp] theorem State.setAcc_gallery (k v : Nat) : (s.setAcc k v).gallery = s.gallery := rfl
@[simp] theorem State.setAcc_engineCode (k v : Nat) : (s.setAcc k v).engineCode = s.engineCode := rfl
@[simp] theorem State.setAcc_timeCode (k v : Nat) : (s.setAcc k v).timeCode = s.timeCode := rfl
@[simp] theorem State.setAcc_host (k v : Nat) : (s.setAcc k v).host = s.host := rfl
@[simp] theorem State.setAcc_otp (k v : Nat) : (s.setAcc k v).otp = s.otp := rfl
@[simp] theorem State.setAcc_cyc (k v : Nat) : (s.setAcc k v).cyc = s.cyc := rfl
@[simp] theorem State.setAcc_ctr (k v : Nat) : (s.setAcc k v).ctr = s.ctr := rfl
@[simp] theorem State.setAcc_valid (k v : Nat) : (s.setAcc k v).valid = s.valid := rfl
@[simp] theorem State.setAcc_free (k v : Nat) : (s.setAcc k v).free = s.free := rfl
@[simp] theorem State.setAcc_attnGen (k v : Nat) : (s.setAcc k v).attnGen = s.attnGen := rfl
@[simp] theorem State.setAcc_ready (k v : Nat) : (s.setAcc k v).ready = s.ready := rfl
@[simp] theorem State.setAcc_pins (k v : Nat) : (s.setAcc k v).pins = s.pins := rfl
@[simp] theorem State.setAcc_pwr (k v : Nat) : (s.setAcc k v).pwr = s.pwr := rfl
@[simp] theorem State.setAcc_kpr (k v : Nat) : (s.setAcc k v).kpr = s.kpr := rfl
@[simp] theorem State.setAcc_boot (k v : Nat) : (s.setAcc k v).boot = s.boot := rfl
@[simp] theorem State.setAcc_sec (k v : Nat) : (s.setAcc k v).sec = s.sec := rfl
@[simp] theorem State.setAcc_hif (k v : Nat) : (s.setAcc k v).hif = s.hif := rfl
@[simp] theorem State.setAcc_pci (k v : Nat) : (s.setAcc k v).pci = s.pci := rfl
@[simp] theorem State.setAcc_replies (k v : Nat) : (s.setAcc k v).replies = s.replies := rfl
@[simp] theorem State.setAcc_masters (k v : Nat) : (s.setAcc k v).masters = s.masters := rfl
@[simp] theorem State.setAcc_servo (k v : Nat) : (s.setAcc k v).servo = s.servo := rfl
@[simp] theorem State.setAcc_refMon (k v : Nat) : (s.setAcc k v).refMon = s.refMon := rfl
@[simp] theorem State.setAcc_clk (k v : Nat) : (s.setAcc k v).clk = s.clk := rfl
@[simp] theorem State.setAcc_lanes (k v : Nat) : (s.setAcc k v).lanes = s.lanes := rfl
@[simp] theorem State.setAcc_subs (k v : Nat) : (s.setAcc k v).subs = s.subs := rfl
@[simp] theorem State.setAcc_slots (k v : Nat) : (s.setAcc k v).slots = s.slots := rfl
@[simp] theorem State.setAcc_flows (k v : Nat) : (s.setAcc k v).flows = s.flows := rfl
@[simp] theorem State.setAcc_anc (k v : Nat) : (s.setAcc k v).anc = s.anc := rfl
@[simp] theorem State.setAcc_source (k v : Nat) : (s.setAcc k v).source = s.source := rfl
@[simp] theorem State.setAcc_stats (k v : Nat) : (s.setAcc k v).stats = s.stats := rfl
@[simp] theorem State.setAcc_span (k v : Nat) : (s.setAcc k v).span = s.span := rfl
@[simp] theorem State.setAcc_held (k v : Nat) : (s.setAcc k v).held = s.held := rfl
@[simp] theorem State.setAcc_tasks (k v : Nat) : (s.setAcc k v).tasks = s.tasks := rfl
@[simp] theorem State.setAcc_passes (k v : Nat) : (s.setAcc k v).passes = s.passes := rfl
@[simp] theorem State.setAcc_quarter (k v : Nat) : (s.setAcc k v).quarter = s.quarter := rfl
@[simp] theorem State.setAcc_records (k v : Nat) : (s.setAcc k v).records = s.records := rfl
@[simp] theorem State.setAcc_summary (k v : Nat) : (s.setAcc k v).summary = s.summary := rfl
@[simp] theorem State.setAcc_copies (k v : Nat) : (s.setAcc k v).copies = s.copies := rfl
@[simp] theorem State.setAcc_luts (k v : Nat) : (s.setAcc k v).luts = s.luts := rfl
@[simp] theorem State.setAcc_lutBad (k v : Nat) : (s.setAcc k v).lutBad = s.lutBad := rfl
@[simp] theorem State.setAcc_loads (k v : Nat) : (s.setAcc k v).loads = s.loads := rfl
@[simp] theorem State.setAcc_tags (k v : Nat) : (s.setAcc k v).tags = s.tags := rfl
@[simp] theorem State.setAcc_order (k v : Nat) : (s.setAcc k v).order = s.order := rfl
@[simp] theorem State.setAcc_outs (k v : Nat) : (s.setAcc k v).outs = s.outs := rfl
@[simp] theorem State.setAcc_bays (k v : Nat) : (s.setAcc k v).bays = s.bays := rfl
@[simp] theorem State.setAcc_bayLog (k v : Nat) : (s.setAcc k v).bayLog = s.bayLog := rfl
@[simp] theorem State.setAcc_mzeLog (k v : Nat) : (s.setAcc k v).mzeLog = s.mzeLog := rfl
@[simp] theorem State.setAcc_floors (k v : Nat) : (s.setAcc k v).floors = s.floors := rfl
@[simp] theorem State.setAcc_floorQ (k v : Nat) : (s.setAcc k v).floorQ = s.floorQ := rfl
@[simp] theorem State.setAcc_regions (k v : Nat) : (s.setAcc k v).regions = s.regions := rfl
@[simp] theorem State.setAcc_slices (k v : Nat) : (s.setAcc k v).slices = s.slices := rfl
@[simp] theorem State.setAcc_maps (k v : Nat) : (s.setAcc k v).maps = s.maps := rfl
@[simp] theorem State.setAcc_queues (k v : Nat) : (s.setAcc k v).queues = s.queues := rfl
@[simp] theorem State.setAcc_buckets (k v : Nat) : (s.setAcc k v).buckets = s.buckets := rfl
@[simp] theorem State.setAcc_svcs (k v : Nat) : (s.setAcc k v).svcs = s.svcs := rfl
@[simp] theorem State.setAcc_ports (k v : Nat) : (s.setAcc k v).ports = s.ports := rfl
@[simp] theorem State.setAcc_rates (k v : Nat) : (s.setAcc k v).rates = s.rates := rfl
@[simp] theorem State.setAcc_pcs (k v : Nat) : (s.setAcc k v).pcs = s.pcs := rfl
@[simp] theorem State.setAcc_poison (k v : Nat) : (s.setAcc k v).poison = s.poison := rfl
@[simp] theorem State.setAcc_badWords (k v : Nat) : (s.setAcc k v).badWords = s.badWords := rfl
@[simp] theorem State.setAcc_wbacks (k v : Nat) : (s.setAcc k v).wbacks = s.wbacks := rfl
@[simp] theorem State.setAcc_rereads (k v : Nat) : (s.setAcc k v).rereads = s.rereads := rfl
@[simp] theorem State.setAcc_scrub (k v : Nat) : (s.setAcc k v).scrub = s.scrub := rfl
@[simp] theorem State.setAcc_chk (k v : Nat) : (s.setAcc k v).chk = s.chk := rfl
@[simp] theorem State.setAcc_scan (k v : Nat) : (s.setAcc k v).scan = s.scan := rfl
@[simp] theorem State.setAcc_sealSnap (k v : Nat) : (s.setAcc k v).sealSnap = s.sealSnap := rfl
@[simp] theorem State.setAcc_audio (k v : Nat) : (s.setAcc k v).audio = s.audio := rfl
@[simp] theorem State.setAcc_pending (k v : Nat) : (s.setAcc k v).pending = s.pending := rfl

/-! ### A running count advanced -/

@[simp] theorem State.addAcc_regs (k n : Nat) : (s.addAcc k n).regs = s.regs := rfl
@[simp] theorem State.addAcc_shadow (k n : Nat) : (s.addAcc k n).shadow = s.shadow := rfl
@[simp] theorem State.addAcc_hbm (k n : Nat) : (s.addAcc k n).hbm = s.hbm := rfl
@[simp] theorem State.addAcc_gallery (k n : Nat) : (s.addAcc k n).gallery = s.gallery := rfl
@[simp] theorem State.addAcc_engineCode (k n : Nat) : (s.addAcc k n).engineCode = s.engineCode := rfl
@[simp] theorem State.addAcc_timeCode (k n : Nat) : (s.addAcc k n).timeCode = s.timeCode := rfl
@[simp] theorem State.addAcc_host (k n : Nat) : (s.addAcc k n).host = s.host := rfl
@[simp] theorem State.addAcc_otp (k n : Nat) : (s.addAcc k n).otp = s.otp := rfl
@[simp] theorem State.addAcc_cyc (k n : Nat) : (s.addAcc k n).cyc = s.cyc := rfl
@[simp] theorem State.addAcc_ctr (k n : Nat) : (s.addAcc k n).ctr = s.ctr := rfl
@[simp] theorem State.addAcc_valid (k n : Nat) : (s.addAcc k n).valid = s.valid := rfl
@[simp] theorem State.addAcc_free (k n : Nat) : (s.addAcc k n).free = s.free := rfl
@[simp] theorem State.addAcc_attnGen (k n : Nat) : (s.addAcc k n).attnGen = s.attnGen := rfl
@[simp] theorem State.addAcc_ready (k n : Nat) : (s.addAcc k n).ready = s.ready := rfl
@[simp] theorem State.addAcc_pins (k n : Nat) : (s.addAcc k n).pins = s.pins := rfl
@[simp] theorem State.addAcc_pwr (k n : Nat) : (s.addAcc k n).pwr = s.pwr := rfl
@[simp] theorem State.addAcc_kpr (k n : Nat) : (s.addAcc k n).kpr = s.kpr := rfl
@[simp] theorem State.addAcc_boot (k n : Nat) : (s.addAcc k n).boot = s.boot := rfl
@[simp] theorem State.addAcc_sec (k n : Nat) : (s.addAcc k n).sec = s.sec := rfl
@[simp] theorem State.addAcc_hif (k n : Nat) : (s.addAcc k n).hif = s.hif := rfl
@[simp] theorem State.addAcc_pci (k n : Nat) : (s.addAcc k n).pci = s.pci := rfl
@[simp] theorem State.addAcc_replies (k n : Nat) : (s.addAcc k n).replies = s.replies := rfl
@[simp] theorem State.addAcc_masters (k n : Nat) : (s.addAcc k n).masters = s.masters := rfl
@[simp] theorem State.addAcc_servo (k n : Nat) : (s.addAcc k n).servo = s.servo := rfl
@[simp] theorem State.addAcc_refMon (k n : Nat) : (s.addAcc k n).refMon = s.refMon := rfl
@[simp] theorem State.addAcc_clk (k n : Nat) : (s.addAcc k n).clk = s.clk := rfl
@[simp] theorem State.addAcc_lanes (k n : Nat) : (s.addAcc k n).lanes = s.lanes := rfl
@[simp] theorem State.addAcc_subs (k n : Nat) : (s.addAcc k n).subs = s.subs := rfl
@[simp] theorem State.addAcc_slots (k n : Nat) : (s.addAcc k n).slots = s.slots := rfl
@[simp] theorem State.addAcc_flows (k n : Nat) : (s.addAcc k n).flows = s.flows := rfl
@[simp] theorem State.addAcc_anc (k n : Nat) : (s.addAcc k n).anc = s.anc := rfl
@[simp] theorem State.addAcc_source (k n : Nat) : (s.addAcc k n).source = s.source := rfl
@[simp] theorem State.addAcc_stats (k n : Nat) : (s.addAcc k n).stats = s.stats := rfl
@[simp] theorem State.addAcc_span (k n : Nat) : (s.addAcc k n).span = s.span := rfl
@[simp] theorem State.addAcc_held (k n : Nat) : (s.addAcc k n).held = s.held := rfl
@[simp] theorem State.addAcc_tasks (k n : Nat) : (s.addAcc k n).tasks = s.tasks := rfl
@[simp] theorem State.addAcc_passes (k n : Nat) : (s.addAcc k n).passes = s.passes := rfl
@[simp] theorem State.addAcc_quarter (k n : Nat) : (s.addAcc k n).quarter = s.quarter := rfl
@[simp] theorem State.addAcc_records (k n : Nat) : (s.addAcc k n).records = s.records := rfl
@[simp] theorem State.addAcc_summary (k n : Nat) : (s.addAcc k n).summary = s.summary := rfl
@[simp] theorem State.addAcc_copies (k n : Nat) : (s.addAcc k n).copies = s.copies := rfl
@[simp] theorem State.addAcc_luts (k n : Nat) : (s.addAcc k n).luts = s.luts := rfl
@[simp] theorem State.addAcc_lutBad (k n : Nat) : (s.addAcc k n).lutBad = s.lutBad := rfl
@[simp] theorem State.addAcc_loads (k n : Nat) : (s.addAcc k n).loads = s.loads := rfl
@[simp] theorem State.addAcc_tags (k n : Nat) : (s.addAcc k n).tags = s.tags := rfl
@[simp] theorem State.addAcc_order (k n : Nat) : (s.addAcc k n).order = s.order := rfl
@[simp] theorem State.addAcc_outs (k n : Nat) : (s.addAcc k n).outs = s.outs := rfl
@[simp] theorem State.addAcc_bays (k n : Nat) : (s.addAcc k n).bays = s.bays := rfl
@[simp] theorem State.addAcc_bayLog (k n : Nat) : (s.addAcc k n).bayLog = s.bayLog := rfl
@[simp] theorem State.addAcc_mzeLog (k n : Nat) : (s.addAcc k n).mzeLog = s.mzeLog := rfl
@[simp] theorem State.addAcc_floors (k n : Nat) : (s.addAcc k n).floors = s.floors := rfl
@[simp] theorem State.addAcc_floorQ (k n : Nat) : (s.addAcc k n).floorQ = s.floorQ := rfl
@[simp] theorem State.addAcc_regions (k n : Nat) : (s.addAcc k n).regions = s.regions := rfl
@[simp] theorem State.addAcc_slices (k n : Nat) : (s.addAcc k n).slices = s.slices := rfl
@[simp] theorem State.addAcc_maps (k n : Nat) : (s.addAcc k n).maps = s.maps := rfl
@[simp] theorem State.addAcc_queues (k n : Nat) : (s.addAcc k n).queues = s.queues := rfl
@[simp] theorem State.addAcc_buckets (k n : Nat) : (s.addAcc k n).buckets = s.buckets := rfl
@[simp] theorem State.addAcc_svcs (k n : Nat) : (s.addAcc k n).svcs = s.svcs := rfl
@[simp] theorem State.addAcc_ports (k n : Nat) : (s.addAcc k n).ports = s.ports := rfl
@[simp] theorem State.addAcc_rates (k n : Nat) : (s.addAcc k n).rates = s.rates := rfl
@[simp] theorem State.addAcc_pcs (k n : Nat) : (s.addAcc k n).pcs = s.pcs := rfl
@[simp] theorem State.addAcc_poison (k n : Nat) : (s.addAcc k n).poison = s.poison := rfl
@[simp] theorem State.addAcc_badWords (k n : Nat) : (s.addAcc k n).badWords = s.badWords := rfl
@[simp] theorem State.addAcc_wbacks (k n : Nat) : (s.addAcc k n).wbacks = s.wbacks := rfl
@[simp] theorem State.addAcc_rereads (k n : Nat) : (s.addAcc k n).rereads = s.rereads := rfl
@[simp] theorem State.addAcc_scrub (k n : Nat) : (s.addAcc k n).scrub = s.scrub := rfl
@[simp] theorem State.addAcc_chk (k n : Nat) : (s.addAcc k n).chk = s.chk := rfl
@[simp] theorem State.addAcc_scan (k n : Nat) : (s.addAcc k n).scan = s.scan := rfl
@[simp] theorem State.addAcc_sealSnap (k n : Nat) : (s.addAcc k n).sealSnap = s.sealSnap := rfl
@[simp] theorem State.addAcc_audio (k n : Nat) : (s.addAcc k n).audio = s.audio := rfl
@[simp] theorem State.addAcc_pending (k n : Nat) : (s.addAcc k n).pending = s.pending := rfl

/-! ### An event -/

@[simp] theorem State.raise_shadow (b k : Nat) : (s.raise b k).shadow = s.shadow := rfl
@[simp] theorem State.raise_acc (b k : Nat) : (s.raise b k).acc = s.acc := rfl
@[simp] theorem State.raise_hbm (b k : Nat) : (s.raise b k).hbm = s.hbm := rfl
@[simp] theorem State.raise_gallery (b k : Nat) : (s.raise b k).gallery = s.gallery := rfl
@[simp] theorem State.raise_engineCode (b k : Nat) : (s.raise b k).engineCode = s.engineCode := rfl
@[simp] theorem State.raise_timeCode (b k : Nat) : (s.raise b k).timeCode = s.timeCode := rfl
@[simp] theorem State.raise_host (b k : Nat) : (s.raise b k).host = s.host := rfl
@[simp] theorem State.raise_otp (b k : Nat) : (s.raise b k).otp = s.otp := rfl
@[simp] theorem State.raise_cyc (b k : Nat) : (s.raise b k).cyc = s.cyc := rfl
@[simp] theorem State.raise_ctr (b k : Nat) : (s.raise b k).ctr = s.ctr := rfl
@[simp] theorem State.raise_valid (b k : Nat) : (s.raise b k).valid = s.valid := rfl
@[simp] theorem State.raise_free (b k : Nat) : (s.raise b k).free = s.free := rfl
@[simp] theorem State.raise_attnGen (b k : Nat) : (s.raise b k).attnGen = s.attnGen := rfl
@[simp] theorem State.raise_ready (b k : Nat) : (s.raise b k).ready = s.ready := rfl
@[simp] theorem State.raise_pins (b k : Nat) : (s.raise b k).pins = s.pins := rfl
@[simp] theorem State.raise_pwr (b k : Nat) : (s.raise b k).pwr = s.pwr := rfl
@[simp] theorem State.raise_kpr (b k : Nat) : (s.raise b k).kpr = s.kpr := rfl
@[simp] theorem State.raise_boot (b k : Nat) : (s.raise b k).boot = s.boot := rfl
@[simp] theorem State.raise_sec (b k : Nat) : (s.raise b k).sec = s.sec := rfl
@[simp] theorem State.raise_hif (b k : Nat) : (s.raise b k).hif = s.hif := rfl
@[simp] theorem State.raise_pci (b k : Nat) : (s.raise b k).pci = s.pci := rfl
@[simp] theorem State.raise_replies (b k : Nat) : (s.raise b k).replies = s.replies := rfl
@[simp] theorem State.raise_masters (b k : Nat) : (s.raise b k).masters = s.masters := rfl
@[simp] theorem State.raise_servo (b k : Nat) : (s.raise b k).servo = s.servo := rfl
@[simp] theorem State.raise_refMon (b k : Nat) : (s.raise b k).refMon = s.refMon := rfl
@[simp] theorem State.raise_clk (b k : Nat) : (s.raise b k).clk = s.clk := rfl
@[simp] theorem State.raise_lanes (b k : Nat) : (s.raise b k).lanes = s.lanes := rfl
@[simp] theorem State.raise_subs (b k : Nat) : (s.raise b k).subs = s.subs := rfl
@[simp] theorem State.raise_slots (b k : Nat) : (s.raise b k).slots = s.slots := rfl
@[simp] theorem State.raise_flows (b k : Nat) : (s.raise b k).flows = s.flows := rfl
@[simp] theorem State.raise_anc (b k : Nat) : (s.raise b k).anc = s.anc := rfl
@[simp] theorem State.raise_source (b k : Nat) : (s.raise b k).source = s.source := rfl
@[simp] theorem State.raise_stats (b k : Nat) : (s.raise b k).stats = s.stats := rfl
@[simp] theorem State.raise_span (b k : Nat) : (s.raise b k).span = s.span := rfl
@[simp] theorem State.raise_held (b k : Nat) : (s.raise b k).held = s.held := rfl
@[simp] theorem State.raise_tasks (b k : Nat) : (s.raise b k).tasks = s.tasks := rfl
@[simp] theorem State.raise_passes (b k : Nat) : (s.raise b k).passes = s.passes := rfl
@[simp] theorem State.raise_quarter (b k : Nat) : (s.raise b k).quarter = s.quarter := rfl
@[simp] theorem State.raise_records (b k : Nat) : (s.raise b k).records = s.records := rfl
@[simp] theorem State.raise_summary (b k : Nat) : (s.raise b k).summary = s.summary := rfl
@[simp] theorem State.raise_copies (b k : Nat) : (s.raise b k).copies = s.copies := rfl
@[simp] theorem State.raise_luts (b k : Nat) : (s.raise b k).luts = s.luts := rfl
@[simp] theorem State.raise_lutBad (b k : Nat) : (s.raise b k).lutBad = s.lutBad := rfl
@[simp] theorem State.raise_loads (b k : Nat) : (s.raise b k).loads = s.loads := rfl
@[simp] theorem State.raise_tags (b k : Nat) : (s.raise b k).tags = s.tags := rfl
@[simp] theorem State.raise_order (b k : Nat) : (s.raise b k).order = s.order := rfl
@[simp] theorem State.raise_outs (b k : Nat) : (s.raise b k).outs = s.outs := rfl
@[simp] theorem State.raise_bays (b k : Nat) : (s.raise b k).bays = s.bays := rfl
@[simp] theorem State.raise_bayLog (b k : Nat) : (s.raise b k).bayLog = s.bayLog := rfl
@[simp] theorem State.raise_mzeLog (b k : Nat) : (s.raise b k).mzeLog = s.mzeLog := rfl
@[simp] theorem State.raise_floors (b k : Nat) : (s.raise b k).floors = s.floors := rfl
@[simp] theorem State.raise_floorQ (b k : Nat) : (s.raise b k).floorQ = s.floorQ := rfl
@[simp] theorem State.raise_regions (b k : Nat) : (s.raise b k).regions = s.regions := rfl
@[simp] theorem State.raise_slices (b k : Nat) : (s.raise b k).slices = s.slices := rfl
@[simp] theorem State.raise_maps (b k : Nat) : (s.raise b k).maps = s.maps := rfl
@[simp] theorem State.raise_queues (b k : Nat) : (s.raise b k).queues = s.queues := rfl
@[simp] theorem State.raise_buckets (b k : Nat) : (s.raise b k).buckets = s.buckets := rfl
@[simp] theorem State.raise_svcs (b k : Nat) : (s.raise b k).svcs = s.svcs := rfl
@[simp] theorem State.raise_ports (b k : Nat) : (s.raise b k).ports = s.ports := rfl
@[simp] theorem State.raise_rates (b k : Nat) : (s.raise b k).rates = s.rates := rfl
@[simp] theorem State.raise_pcs (b k : Nat) : (s.raise b k).pcs = s.pcs := rfl
@[simp] theorem State.raise_poison (b k : Nat) : (s.raise b k).poison = s.poison := rfl
@[simp] theorem State.raise_badWords (b k : Nat) : (s.raise b k).badWords = s.badWords := rfl
@[simp] theorem State.raise_wbacks (b k : Nat) : (s.raise b k).wbacks = s.wbacks := rfl
@[simp] theorem State.raise_rereads (b k : Nat) : (s.raise b k).rereads = s.rereads := rfl
@[simp] theorem State.raise_scrub (b k : Nat) : (s.raise b k).scrub = s.scrub := rfl
@[simp] theorem State.raise_chk (b k : Nat) : (s.raise b k).chk = s.chk := rfl
@[simp] theorem State.raise_scan (b k : Nat) : (s.raise b k).scan = s.scan := rfl
@[simp] theorem State.raise_sealSnap (b k : Nat) : (s.raise b k).sealSnap = s.sealSnap := rfl
@[simp] theorem State.raise_audio (b k : Nat) : (s.raise b k).audio = s.audio := rfl
@[simp] theorem State.raise_pending (b k : Nat) : (s.raise b k).pending = s.pending := rfl

/-! ### A peak -/

@[simp] theorem State.maxFld_shadow (f : Fld) (v : Nat) : (s.maxFld f v).shadow = s.shadow := by unfold State.maxFld; split <;> rfl
@[simp] theorem State.maxFld_acc (f : Fld) (v : Nat) : (s.maxFld f v).acc = s.acc := by unfold State.maxFld; split <;> rfl
@[simp] theorem State.maxFld_hbm (f : Fld) (v : Nat) : (s.maxFld f v).hbm = s.hbm := by unfold State.maxFld; split <;> rfl
@[simp] theorem State.maxFld_gallery (f : Fld) (v : Nat) : (s.maxFld f v).gallery = s.gallery := by unfold State.maxFld; split <;> rfl
@[simp] theorem State.maxFld_engineCode (f : Fld) (v : Nat) : (s.maxFld f v).engineCode = s.engineCode := by unfold State.maxFld; split <;> rfl
@[simp] theorem State.maxFld_timeCode (f : Fld) (v : Nat) : (s.maxFld f v).timeCode = s.timeCode := by unfold State.maxFld; split <;> rfl
@[simp] theorem State.maxFld_host (f : Fld) (v : Nat) : (s.maxFld f v).host = s.host := by unfold State.maxFld; split <;> rfl
@[simp] theorem State.maxFld_otp (f : Fld) (v : Nat) : (s.maxFld f v).otp = s.otp := by unfold State.maxFld; split <;> rfl
@[simp] theorem State.maxFld_cyc (f : Fld) (v : Nat) : (s.maxFld f v).cyc = s.cyc := by unfold State.maxFld; split <;> rfl
@[simp] theorem State.maxFld_ctr (f : Fld) (v : Nat) : (s.maxFld f v).ctr = s.ctr := by unfold State.maxFld; split <;> rfl
@[simp] theorem State.maxFld_valid (f : Fld) (v : Nat) : (s.maxFld f v).valid = s.valid := by unfold State.maxFld; split <;> rfl
@[simp] theorem State.maxFld_free (f : Fld) (v : Nat) : (s.maxFld f v).free = s.free := by unfold State.maxFld; split <;> rfl
@[simp] theorem State.maxFld_attnGen (f : Fld) (v : Nat) : (s.maxFld f v).attnGen = s.attnGen := by unfold State.maxFld; split <;> rfl
@[simp] theorem State.maxFld_ready (f : Fld) (v : Nat) : (s.maxFld f v).ready = s.ready := by unfold State.maxFld; split <;> rfl
@[simp] theorem State.maxFld_pins (f : Fld) (v : Nat) : (s.maxFld f v).pins = s.pins := by unfold State.maxFld; split <;> rfl
@[simp] theorem State.maxFld_pwr (f : Fld) (v : Nat) : (s.maxFld f v).pwr = s.pwr := by unfold State.maxFld; split <;> rfl
@[simp] theorem State.maxFld_kpr (f : Fld) (v : Nat) : (s.maxFld f v).kpr = s.kpr := by unfold State.maxFld; split <;> rfl
@[simp] theorem State.maxFld_boot (f : Fld) (v : Nat) : (s.maxFld f v).boot = s.boot := by unfold State.maxFld; split <;> rfl
@[simp] theorem State.maxFld_sec (f : Fld) (v : Nat) : (s.maxFld f v).sec = s.sec := by unfold State.maxFld; split <;> rfl
@[simp] theorem State.maxFld_hif (f : Fld) (v : Nat) : (s.maxFld f v).hif = s.hif := by unfold State.maxFld; split <;> rfl
@[simp] theorem State.maxFld_pci (f : Fld) (v : Nat) : (s.maxFld f v).pci = s.pci := by unfold State.maxFld; split <;> rfl
@[simp] theorem State.maxFld_replies (f : Fld) (v : Nat) : (s.maxFld f v).replies = s.replies := by unfold State.maxFld; split <;> rfl
@[simp] theorem State.maxFld_masters (f : Fld) (v : Nat) : (s.maxFld f v).masters = s.masters := by unfold State.maxFld; split <;> rfl
@[simp] theorem State.maxFld_servo (f : Fld) (v : Nat) : (s.maxFld f v).servo = s.servo := by unfold State.maxFld; split <;> rfl
@[simp] theorem State.maxFld_refMon (f : Fld) (v : Nat) : (s.maxFld f v).refMon = s.refMon := by unfold State.maxFld; split <;> rfl
@[simp] theorem State.maxFld_clk (f : Fld) (v : Nat) : (s.maxFld f v).clk = s.clk := by unfold State.maxFld; split <;> rfl
@[simp] theorem State.maxFld_lanes (f : Fld) (v : Nat) : (s.maxFld f v).lanes = s.lanes := by unfold State.maxFld; split <;> rfl
@[simp] theorem State.maxFld_subs (f : Fld) (v : Nat) : (s.maxFld f v).subs = s.subs := by unfold State.maxFld; split <;> rfl
@[simp] theorem State.maxFld_slots (f : Fld) (v : Nat) : (s.maxFld f v).slots = s.slots := by unfold State.maxFld; split <;> rfl
@[simp] theorem State.maxFld_flows (f : Fld) (v : Nat) : (s.maxFld f v).flows = s.flows := by unfold State.maxFld; split <;> rfl
@[simp] theorem State.maxFld_anc (f : Fld) (v : Nat) : (s.maxFld f v).anc = s.anc := by unfold State.maxFld; split <;> rfl
@[simp] theorem State.maxFld_source (f : Fld) (v : Nat) : (s.maxFld f v).source = s.source := by unfold State.maxFld; split <;> rfl
@[simp] theorem State.maxFld_stats (f : Fld) (v : Nat) : (s.maxFld f v).stats = s.stats := by unfold State.maxFld; split <;> rfl
@[simp] theorem State.maxFld_span (f : Fld) (v : Nat) : (s.maxFld f v).span = s.span := by unfold State.maxFld; split <;> rfl
@[simp] theorem State.maxFld_held (f : Fld) (v : Nat) : (s.maxFld f v).held = s.held := by unfold State.maxFld; split <;> rfl
@[simp] theorem State.maxFld_tasks (f : Fld) (v : Nat) : (s.maxFld f v).tasks = s.tasks := by unfold State.maxFld; split <;> rfl
@[simp] theorem State.maxFld_passes (f : Fld) (v : Nat) : (s.maxFld f v).passes = s.passes := by unfold State.maxFld; split <;> rfl
@[simp] theorem State.maxFld_quarter (f : Fld) (v : Nat) : (s.maxFld f v).quarter = s.quarter := by unfold State.maxFld; split <;> rfl
@[simp] theorem State.maxFld_records (f : Fld) (v : Nat) : (s.maxFld f v).records = s.records := by unfold State.maxFld; split <;> rfl
@[simp] theorem State.maxFld_summary (f : Fld) (v : Nat) : (s.maxFld f v).summary = s.summary := by unfold State.maxFld; split <;> rfl
@[simp] theorem State.maxFld_copies (f : Fld) (v : Nat) : (s.maxFld f v).copies = s.copies := by unfold State.maxFld; split <;> rfl
@[simp] theorem State.maxFld_luts (f : Fld) (v : Nat) : (s.maxFld f v).luts = s.luts := by unfold State.maxFld; split <;> rfl
@[simp] theorem State.maxFld_lutBad (f : Fld) (v : Nat) : (s.maxFld f v).lutBad = s.lutBad := by unfold State.maxFld; split <;> rfl
@[simp] theorem State.maxFld_loads (f : Fld) (v : Nat) : (s.maxFld f v).loads = s.loads := by unfold State.maxFld; split <;> rfl
@[simp] theorem State.maxFld_tags (f : Fld) (v : Nat) : (s.maxFld f v).tags = s.tags := by unfold State.maxFld; split <;> rfl
@[simp] theorem State.maxFld_order (f : Fld) (v : Nat) : (s.maxFld f v).order = s.order := by unfold State.maxFld; split <;> rfl
@[simp] theorem State.maxFld_outs (f : Fld) (v : Nat) : (s.maxFld f v).outs = s.outs := by unfold State.maxFld; split <;> rfl
@[simp] theorem State.maxFld_bays (f : Fld) (v : Nat) : (s.maxFld f v).bays = s.bays := by unfold State.maxFld; split <;> rfl
@[simp] theorem State.maxFld_bayLog (f : Fld) (v : Nat) : (s.maxFld f v).bayLog = s.bayLog := by unfold State.maxFld; split <;> rfl
@[simp] theorem State.maxFld_mzeLog (f : Fld) (v : Nat) : (s.maxFld f v).mzeLog = s.mzeLog := by unfold State.maxFld; split <;> rfl
@[simp] theorem State.maxFld_floors (f : Fld) (v : Nat) : (s.maxFld f v).floors = s.floors := by unfold State.maxFld; split <;> rfl
@[simp] theorem State.maxFld_floorQ (f : Fld) (v : Nat) : (s.maxFld f v).floorQ = s.floorQ := by unfold State.maxFld; split <;> rfl
@[simp] theorem State.maxFld_regions (f : Fld) (v : Nat) : (s.maxFld f v).regions = s.regions := by unfold State.maxFld; split <;> rfl
@[simp] theorem State.maxFld_slices (f : Fld) (v : Nat) : (s.maxFld f v).slices = s.slices := by unfold State.maxFld; split <;> rfl
@[simp] theorem State.maxFld_maps (f : Fld) (v : Nat) : (s.maxFld f v).maps = s.maps := by unfold State.maxFld; split <;> rfl
@[simp] theorem State.maxFld_queues (f : Fld) (v : Nat) : (s.maxFld f v).queues = s.queues := by unfold State.maxFld; split <;> rfl
@[simp] theorem State.maxFld_buckets (f : Fld) (v : Nat) : (s.maxFld f v).buckets = s.buckets := by unfold State.maxFld; split <;> rfl
@[simp] theorem State.maxFld_svcs (f : Fld) (v : Nat) : (s.maxFld f v).svcs = s.svcs := by unfold State.maxFld; split <;> rfl
@[simp] theorem State.maxFld_ports (f : Fld) (v : Nat) : (s.maxFld f v).ports = s.ports := by unfold State.maxFld; split <;> rfl
@[simp] theorem State.maxFld_rates (f : Fld) (v : Nat) : (s.maxFld f v).rates = s.rates := by unfold State.maxFld; split <;> rfl
@[simp] theorem State.maxFld_pcs (f : Fld) (v : Nat) : (s.maxFld f v).pcs = s.pcs := by unfold State.maxFld; split <;> rfl
@[simp] theorem State.maxFld_poison (f : Fld) (v : Nat) : (s.maxFld f v).poison = s.poison := by unfold State.maxFld; split <;> rfl
@[simp] theorem State.maxFld_badWords (f : Fld) (v : Nat) : (s.maxFld f v).badWords = s.badWords := by unfold State.maxFld; split <;> rfl
@[simp] theorem State.maxFld_wbacks (f : Fld) (v : Nat) : (s.maxFld f v).wbacks = s.wbacks := by unfold State.maxFld; split <;> rfl
@[simp] theorem State.maxFld_rereads (f : Fld) (v : Nat) : (s.maxFld f v).rereads = s.rereads := by unfold State.maxFld; split <;> rfl
@[simp] theorem State.maxFld_scrub (f : Fld) (v : Nat) : (s.maxFld f v).scrub = s.scrub := by unfold State.maxFld; split <;> rfl
@[simp] theorem State.maxFld_chk (f : Fld) (v : Nat) : (s.maxFld f v).chk = s.chk := by unfold State.maxFld; split <;> rfl
@[simp] theorem State.maxFld_scan (f : Fld) (v : Nat) : (s.maxFld f v).scan = s.scan := by unfold State.maxFld; split <;> rfl
@[simp] theorem State.maxFld_sealSnap (f : Fld) (v : Nat) : (s.maxFld f v).sealSnap = s.sealSnap := by unfold State.maxFld; split <;> rfl
@[simp] theorem State.maxFld_audio (f : Fld) (v : Nat) : (s.maxFld f v).audio = s.audio := by unfold State.maxFld; split <;> rfl
@[simp] theorem State.maxFld_pending (f : Fld) (v : Nat) : (s.maxFld f v).pending = s.pending := by unfold State.maxFld; split <;> rfl

/-! ### A fault record -/

@[simp] theorem State.record_shadow (kind cls a b : Nat) : (s.record kind cls a b).shadow = s.shadow := by unfold State.record; rw [State.setFld_shadow, State.setFld_shadow]
@[simp] theorem State.record_acc (kind cls a b : Nat) : (s.record kind cls a b).acc = s.acc := by unfold State.record; rw [State.setFld_acc, State.setFld_acc]
@[simp] theorem State.record_hbm (kind cls a b : Nat) : (s.record kind cls a b).hbm = s.hbm := by unfold State.record; rw [State.setFld_hbm, State.setFld_hbm]
@[simp] theorem State.record_gallery (kind cls a b : Nat) : (s.record kind cls a b).gallery = s.gallery := by unfold State.record; rw [State.setFld_gallery, State.setFld_gallery]
@[simp] theorem State.record_engineCode (kind cls a b : Nat) : (s.record kind cls a b).engineCode = s.engineCode := by unfold State.record; rw [State.setFld_engineCode, State.setFld_engineCode]
@[simp] theorem State.record_timeCode (kind cls a b : Nat) : (s.record kind cls a b).timeCode = s.timeCode := by unfold State.record; rw [State.setFld_timeCode, State.setFld_timeCode]
@[simp] theorem State.record_host (kind cls a b : Nat) : (s.record kind cls a b).host = s.host := by unfold State.record; rw [State.setFld_host, State.setFld_host]
@[simp] theorem State.record_otp (kind cls a b : Nat) : (s.record kind cls a b).otp = s.otp := by unfold State.record; rw [State.setFld_otp, State.setFld_otp]
@[simp] theorem State.record_cyc (kind cls a b : Nat) : (s.record kind cls a b).cyc = s.cyc := by unfold State.record; rw [State.setFld_cyc, State.setFld_cyc]
@[simp] theorem State.record_ctr (kind cls a b : Nat) : (s.record kind cls a b).ctr = s.ctr := by unfold State.record; rw [State.setFld_ctr, State.setFld_ctr]
@[simp] theorem State.record_valid (kind cls a b : Nat) : (s.record kind cls a b).valid = s.valid := by unfold State.record; rw [State.setFld_valid, State.setFld_valid]
@[simp] theorem State.record_free (kind cls a b : Nat) : (s.record kind cls a b).free = s.free := by unfold State.record; rw [State.setFld_free, State.setFld_free]
@[simp] theorem State.record_attnGen (kind cls a b : Nat) : (s.record kind cls a b).attnGen = s.attnGen := by unfold State.record; rw [State.setFld_attnGen, State.setFld_attnGen]
@[simp] theorem State.record_ready (kind cls a b : Nat) : (s.record kind cls a b).ready = s.ready := by unfold State.record; rw [State.setFld_ready, State.setFld_ready]
@[simp] theorem State.record_pins (kind cls a b : Nat) : (s.record kind cls a b).pins = s.pins := by unfold State.record; rw [State.setFld_pins, State.setFld_pins]
@[simp] theorem State.record_pwr (kind cls a b : Nat) : (s.record kind cls a b).pwr = s.pwr := by unfold State.record; rw [State.setFld_pwr, State.setFld_pwr]
@[simp] theorem State.record_boot (kind cls a b : Nat) : (s.record kind cls a b).boot = s.boot := by unfold State.record; rw [State.setFld_boot, State.setFld_boot]
@[simp] theorem State.record_sec (kind cls a b : Nat) : (s.record kind cls a b).sec = s.sec := by unfold State.record; rw [State.setFld_sec, State.setFld_sec]
@[simp] theorem State.record_hif (kind cls a b : Nat) : (s.record kind cls a b).hif = s.hif := by unfold State.record; rw [State.setFld_hif, State.setFld_hif]
@[simp] theorem State.record_pci (kind cls a b : Nat) : (s.record kind cls a b).pci = s.pci := by unfold State.record; rw [State.setFld_pci, State.setFld_pci]
@[simp] theorem State.record_replies (kind cls a b : Nat) : (s.record kind cls a b).replies = s.replies := by unfold State.record; rw [State.setFld_replies, State.setFld_replies]
@[simp] theorem State.record_masters (kind cls a b : Nat) : (s.record kind cls a b).masters = s.masters := by unfold State.record; rw [State.setFld_masters, State.setFld_masters]
@[simp] theorem State.record_servo (kind cls a b : Nat) : (s.record kind cls a b).servo = s.servo := by unfold State.record; rw [State.setFld_servo, State.setFld_servo]
@[simp] theorem State.record_refMon (kind cls a b : Nat) : (s.record kind cls a b).refMon = s.refMon := by unfold State.record; rw [State.setFld_refMon, State.setFld_refMon]
@[simp] theorem State.record_clk (kind cls a b : Nat) : (s.record kind cls a b).clk = s.clk := by unfold State.record; rw [State.setFld_clk, State.setFld_clk]
@[simp] theorem State.record_lanes (kind cls a b : Nat) : (s.record kind cls a b).lanes = s.lanes := by unfold State.record; rw [State.setFld_lanes, State.setFld_lanes]
@[simp] theorem State.record_subs (kind cls a b : Nat) : (s.record kind cls a b).subs = s.subs := by unfold State.record; rw [State.setFld_subs, State.setFld_subs]
@[simp] theorem State.record_slots (kind cls a b : Nat) : (s.record kind cls a b).slots = s.slots := by unfold State.record; rw [State.setFld_slots, State.setFld_slots]
@[simp] theorem State.record_flows (kind cls a b : Nat) : (s.record kind cls a b).flows = s.flows := by unfold State.record; rw [State.setFld_flows, State.setFld_flows]
@[simp] theorem State.record_anc (kind cls a b : Nat) : (s.record kind cls a b).anc = s.anc := by unfold State.record; rw [State.setFld_anc, State.setFld_anc]
@[simp] theorem State.record_source (kind cls a b : Nat) : (s.record kind cls a b).source = s.source := by unfold State.record; rw [State.setFld_source, State.setFld_source]
@[simp] theorem State.record_stats (kind cls a b : Nat) : (s.record kind cls a b).stats = s.stats := by unfold State.record; rw [State.setFld_stats, State.setFld_stats]
@[simp] theorem State.record_span (kind cls a b : Nat) : (s.record kind cls a b).span = s.span := by unfold State.record; rw [State.setFld_span, State.setFld_span]
@[simp] theorem State.record_held (kind cls a b : Nat) : (s.record kind cls a b).held = s.held := by unfold State.record; rw [State.setFld_held, State.setFld_held]
@[simp] theorem State.record_tasks (kind cls a b : Nat) : (s.record kind cls a b).tasks = s.tasks := by unfold State.record; rw [State.setFld_tasks, State.setFld_tasks]
@[simp] theorem State.record_passes (kind cls a b : Nat) : (s.record kind cls a b).passes = s.passes := by unfold State.record; rw [State.setFld_passes, State.setFld_passes]
@[simp] theorem State.record_quarter (kind cls a b : Nat) : (s.record kind cls a b).quarter = s.quarter := by unfold State.record; rw [State.setFld_quarter, State.setFld_quarter]
@[simp] theorem State.record_records (kind cls a b : Nat) : (s.record kind cls a b).records = s.records := by unfold State.record; rw [State.setFld_records, State.setFld_records]
@[simp] theorem State.record_summary (kind cls a b : Nat) : (s.record kind cls a b).summary = s.summary := by unfold State.record; rw [State.setFld_summary, State.setFld_summary]
@[simp] theorem State.record_copies (kind cls a b : Nat) : (s.record kind cls a b).copies = s.copies := by unfold State.record; rw [State.setFld_copies, State.setFld_copies]
@[simp] theorem State.record_luts (kind cls a b : Nat) : (s.record kind cls a b).luts = s.luts := by unfold State.record; rw [State.setFld_luts, State.setFld_luts]
@[simp] theorem State.record_lutBad (kind cls a b : Nat) : (s.record kind cls a b).lutBad = s.lutBad := by unfold State.record; rw [State.setFld_lutBad, State.setFld_lutBad]
@[simp] theorem State.record_loads (kind cls a b : Nat) : (s.record kind cls a b).loads = s.loads := by unfold State.record; rw [State.setFld_loads, State.setFld_loads]
@[simp] theorem State.record_tags (kind cls a b : Nat) : (s.record kind cls a b).tags = s.tags := by unfold State.record; rw [State.setFld_tags, State.setFld_tags]
@[simp] theorem State.record_order (kind cls a b : Nat) : (s.record kind cls a b).order = s.order := by unfold State.record; rw [State.setFld_order, State.setFld_order]
@[simp] theorem State.record_outs (kind cls a b : Nat) : (s.record kind cls a b).outs = s.outs := by unfold State.record; rw [State.setFld_outs, State.setFld_outs]
@[simp] theorem State.record_bays (kind cls a b : Nat) : (s.record kind cls a b).bays = s.bays := by unfold State.record; rw [State.setFld_bays, State.setFld_bays]
@[simp] theorem State.record_bayLog (kind cls a b : Nat) : (s.record kind cls a b).bayLog = s.bayLog := by unfold State.record; rw [State.setFld_bayLog, State.setFld_bayLog]
@[simp] theorem State.record_mzeLog (kind cls a b : Nat) : (s.record kind cls a b).mzeLog = s.mzeLog := by unfold State.record; rw [State.setFld_mzeLog, State.setFld_mzeLog]
@[simp] theorem State.record_floors (kind cls a b : Nat) : (s.record kind cls a b).floors = s.floors := by unfold State.record; rw [State.setFld_floors, State.setFld_floors]
@[simp] theorem State.record_floorQ (kind cls a b : Nat) : (s.record kind cls a b).floorQ = s.floorQ := by unfold State.record; rw [State.setFld_floorQ, State.setFld_floorQ]
@[simp] theorem State.record_regions (kind cls a b : Nat) : (s.record kind cls a b).regions = s.regions := by unfold State.record; rw [State.setFld_regions, State.setFld_regions]
@[simp] theorem State.record_slices (kind cls a b : Nat) : (s.record kind cls a b).slices = s.slices := by unfold State.record; rw [State.setFld_slices, State.setFld_slices]
@[simp] theorem State.record_maps (kind cls a b : Nat) : (s.record kind cls a b).maps = s.maps := by unfold State.record; rw [State.setFld_maps, State.setFld_maps]
@[simp] theorem State.record_queues (kind cls a b : Nat) : (s.record kind cls a b).queues = s.queues := by unfold State.record; rw [State.setFld_queues, State.setFld_queues]
@[simp] theorem State.record_buckets (kind cls a b : Nat) : (s.record kind cls a b).buckets = s.buckets := by unfold State.record; rw [State.setFld_buckets, State.setFld_buckets]
@[simp] theorem State.record_svcs (kind cls a b : Nat) : (s.record kind cls a b).svcs = s.svcs := by unfold State.record; rw [State.setFld_svcs, State.setFld_svcs]
@[simp] theorem State.record_ports (kind cls a b : Nat) : (s.record kind cls a b).ports = s.ports := by unfold State.record; rw [State.setFld_ports, State.setFld_ports]
@[simp] theorem State.record_rates (kind cls a b : Nat) : (s.record kind cls a b).rates = s.rates := by unfold State.record; rw [State.setFld_rates, State.setFld_rates]
@[simp] theorem State.record_pcs (kind cls a b : Nat) : (s.record kind cls a b).pcs = s.pcs := by unfold State.record; rw [State.setFld_pcs, State.setFld_pcs]
@[simp] theorem State.record_poison (kind cls a b : Nat) : (s.record kind cls a b).poison = s.poison := by unfold State.record; rw [State.setFld_poison, State.setFld_poison]
@[simp] theorem State.record_badWords (kind cls a b : Nat) : (s.record kind cls a b).badWords = s.badWords := by unfold State.record; rw [State.setFld_badWords, State.setFld_badWords]
@[simp] theorem State.record_wbacks (kind cls a b : Nat) : (s.record kind cls a b).wbacks = s.wbacks := by unfold State.record; rw [State.setFld_wbacks, State.setFld_wbacks]
@[simp] theorem State.record_rereads (kind cls a b : Nat) : (s.record kind cls a b).rereads = s.rereads := by unfold State.record; rw [State.setFld_rereads, State.setFld_rereads]
@[simp] theorem State.record_scrub (kind cls a b : Nat) : (s.record kind cls a b).scrub = s.scrub := by unfold State.record; rw [State.setFld_scrub, State.setFld_scrub]
@[simp] theorem State.record_chk (kind cls a b : Nat) : (s.record kind cls a b).chk = s.chk := by unfold State.record; rw [State.setFld_chk, State.setFld_chk]
@[simp] theorem State.record_scan (kind cls a b : Nat) : (s.record kind cls a b).scan = s.scan := by unfold State.record; rw [State.setFld_scan, State.setFld_scan]
@[simp] theorem State.record_sealSnap (kind cls a b : Nat) : (s.record kind cls a b).sealSnap = s.sealSnap := by unfold State.record; rw [State.setFld_sealSnap, State.setFld_sealSnap]
@[simp] theorem State.record_audio (kind cls a b : Nat) : (s.record kind cls a b).audio = s.audio := by unfold State.record; rw [State.setFld_audio, State.setFld_audio]
@[simp] theorem State.record_pending (kind cls a b : Nat) : (s.record kind cls a b).pending = s.pending := by unfold State.record; rw [State.setFld_pending, State.setFld_pending]

/-! ### The attention generation -/

@[simp] theorem bump_regs : (bump s t).regs = t.regs := rfl
@[simp] theorem bump_shadow : (bump s t).shadow = t.shadow := rfl
@[simp] theorem bump_acc : (bump s t).acc = t.acc := rfl
@[simp] theorem bump_hbm : (bump s t).hbm = t.hbm := rfl
@[simp] theorem bump_gallery : (bump s t).gallery = t.gallery := rfl
@[simp] theorem bump_engineCode : (bump s t).engineCode = t.engineCode := rfl
@[simp] theorem bump_timeCode : (bump s t).timeCode = t.timeCode := rfl
@[simp] theorem bump_host : (bump s t).host = t.host := rfl
@[simp] theorem bump_otp : (bump s t).otp = t.otp := rfl
@[simp] theorem bump_cyc : (bump s t).cyc = t.cyc := rfl
@[simp] theorem bump_ctr : (bump s t).ctr = t.ctr := rfl
@[simp] theorem bump_valid : (bump s t).valid = t.valid := rfl
@[simp] theorem bump_free : (bump s t).free = t.free := rfl
@[simp] theorem bump_ready : (bump s t).ready = t.ready := rfl
@[simp] theorem bump_pins : (bump s t).pins = t.pins := rfl
@[simp] theorem bump_pwr : (bump s t).pwr = t.pwr := rfl
@[simp] theorem bump_kpr : (bump s t).kpr = t.kpr := rfl
@[simp] theorem bump_boot : (bump s t).boot = t.boot := rfl
@[simp] theorem bump_sec : (bump s t).sec = t.sec := rfl
@[simp] theorem bump_hif : (bump s t).hif = t.hif := rfl
@[simp] theorem bump_pci : (bump s t).pci = t.pci := rfl
@[simp] theorem bump_replies : (bump s t).replies = t.replies := rfl
@[simp] theorem bump_masters : (bump s t).masters = t.masters := rfl
@[simp] theorem bump_servo : (bump s t).servo = t.servo := rfl
@[simp] theorem bump_refMon : (bump s t).refMon = t.refMon := rfl
@[simp] theorem bump_clk : (bump s t).clk = t.clk := rfl
@[simp] theorem bump_lanes : (bump s t).lanes = t.lanes := rfl
@[simp] theorem bump_subs : (bump s t).subs = t.subs := rfl
@[simp] theorem bump_slots : (bump s t).slots = t.slots := rfl
@[simp] theorem bump_flows : (bump s t).flows = t.flows := rfl
@[simp] theorem bump_anc : (bump s t).anc = t.anc := rfl
@[simp] theorem bump_source : (bump s t).source = t.source := rfl
@[simp] theorem bump_stats : (bump s t).stats = t.stats := rfl
@[simp] theorem bump_span : (bump s t).span = t.span := rfl
@[simp] theorem bump_held : (bump s t).held = t.held := rfl
@[simp] theorem bump_tasks : (bump s t).tasks = t.tasks := rfl
@[simp] theorem bump_passes : (bump s t).passes = t.passes := rfl
@[simp] theorem bump_quarter : (bump s t).quarter = t.quarter := rfl
@[simp] theorem bump_records : (bump s t).records = t.records := rfl
@[simp] theorem bump_summary : (bump s t).summary = t.summary := rfl
@[simp] theorem bump_copies : (bump s t).copies = t.copies := rfl
@[simp] theorem bump_luts : (bump s t).luts = t.luts := rfl
@[simp] theorem bump_lutBad : (bump s t).lutBad = t.lutBad := rfl
@[simp] theorem bump_loads : (bump s t).loads = t.loads := rfl
@[simp] theorem bump_tags : (bump s t).tags = t.tags := rfl
@[simp] theorem bump_order : (bump s t).order = t.order := rfl
@[simp] theorem bump_outs : (bump s t).outs = t.outs := rfl
@[simp] theorem bump_bays : (bump s t).bays = t.bays := rfl
@[simp] theorem bump_bayLog : (bump s t).bayLog = t.bayLog := rfl
@[simp] theorem bump_mzeLog : (bump s t).mzeLog = t.mzeLog := rfl
@[simp] theorem bump_floors : (bump s t).floors = t.floors := rfl
@[simp] theorem bump_floorQ : (bump s t).floorQ = t.floorQ := rfl
@[simp] theorem bump_regions : (bump s t).regions = t.regions := rfl
@[simp] theorem bump_slices : (bump s t).slices = t.slices := rfl
@[simp] theorem bump_maps : (bump s t).maps = t.maps := rfl
@[simp] theorem bump_queues : (bump s t).queues = t.queues := rfl
@[simp] theorem bump_buckets : (bump s t).buckets = t.buckets := rfl
@[simp] theorem bump_svcs : (bump s t).svcs = t.svcs := rfl
@[simp] theorem bump_ports : (bump s t).ports = t.ports := rfl
@[simp] theorem bump_rates : (bump s t).rates = t.rates := rfl
@[simp] theorem bump_pcs : (bump s t).pcs = t.pcs := rfl
@[simp] theorem bump_poison : (bump s t).poison = t.poison := rfl
@[simp] theorem bump_badWords : (bump s t).badWords = t.badWords := rfl
@[simp] theorem bump_wbacks : (bump s t).wbacks = t.wbacks := rfl
@[simp] theorem bump_rereads : (bump s t).rereads = t.rereads := rfl
@[simp] theorem bump_scrub : (bump s t).scrub = t.scrub := rfl
@[simp] theorem bump_chk : (bump s t).chk = t.chk := rfl
@[simp] theorem bump_scan : (bump s t).scan = t.scan := rfl
@[simp] theorem bump_sealSnap : (bump s t).sealSnap = t.sealSnap := rfl
@[simp] theorem bump_audio : (bump s t).audio = t.audio := rfl
@[simp] theorem bump_pending : (bump s t).pending = t.pending := rfl

end Sys2Proof.Machine
end

