-- ==== Sys2Proof/Laws/Store.lean ====
section
/-!
SUPPORT. Laws/Store.lean: reads after writes of a store, and that every write keeps the canonical form.
-/
namespace Sys2Proof.Machine

variable {α : Type}

theorem Store.get_erase_self (d : Nat → α) (m : Store α) (k : Nat) : Store.get d (m.erase k) k = d k := by
  induction m with
  | nil => rfl
  | cons e m ih =>
    obtain ⟨a, v⟩ := e
    by_cases h : a = k <;> simp [Store.erase, Store.get, h, ih]

theorem Store.get_erase_ne (d : Nat → α) (m : Store α) {k k' : Nat} (h : k' ≠ k) :
    Store.get d (m.erase k) k' = Store.get d m k' := by
  induction m with
  | nil => rfl
  | cons e m ih =>
    obtain ⟨a, v⟩ := e
    by_cases ha : a = k
    · subst ha; simp [Store.erase, Store.get, ih, Ne.symm h]
    · simp only [Store.erase, ha, if_false, Store.get, ih]

theorem Store.get_insert (d : Nat → α) (m : Store α) (k : Nat) (v : α) (k' : Nat) (hk : ∀ e ∈ m, e.1 ≠ k) :
    Store.get d (m.insert k v) k' = if k' = k then v else Store.get d m k' := by
  induction m with
  | nil => by_cases h : k = k' <;> simp [Store.insert, Store.get, h, eq_comm]
  | cons e m ih =>
    obtain ⟨a, w⟩ := e
    have ha : a ≠ k := hk (a, w) (by simp)
    have ih := ih (fun e he => hk e (by simp [he]))
    simp only [Store.insert]
    split
    · by_cases h : k = k' <;> simp [Store.get, h, eq_comm]
    · by_cases h : a = k'
      · subst h; simp [Store.get, ha]
      · simp [Store.get, h, ih]

theorem Store.mem_erase {m : Store α} {k : Nat} {e : Nat × α} : e ∈ m.erase k ↔ e ∈ m ∧ e.1 ≠ k := by
  induction m with
  | nil => simp [Store.erase]
  | cons x m ih =>
    obtain ⟨a, v⟩ := x
    by_cases h : a = k
    · subst h; simp only [Store.erase, if_true, ih, List.mem_cons]
      constructor
      · rintro ⟨h1, h2⟩; exact ⟨.inr h1, h2⟩
      · rintro ⟨rfl | h1, h2⟩
        · exact absurd rfl h2
        · exact ⟨h1, h2⟩
    · simp only [Store.erase, h, if_false, List.mem_cons, ih]
      constructor
      · rintro (rfl | ⟨h1, h2⟩)
        · exact ⟨.inl rfl, h⟩
        · exact ⟨.inr h1, h2⟩
      · rintro ⟨rfl | h1, h2⟩
        · exact .inl rfl
        · exact .inr ⟨h1, h2⟩

theorem Store.mem_insert {m : Store α} {k : Nat} {v : α} {e : Nat × α} : e ∈ m.insert k v ↔ e = (k, v) ∨ e ∈ m := by
  induction m with
  | nil => simp [Store.insert]
  | cons x m ih =>
    obtain ⟨a, w⟩ := x
    simp only [Store.insert]
    split
    · simp
    · simp only [List.mem_cons, ih]
      constructor
      · rintro (h | h | h) <;> simp [h]
      · rintro (h | h | h) <;> simp [h]

/-- A read after a write: the value written at its key, every other key as before. -/
theorem Store.get_set [DecidableEq α] (d : Nat → α) (m : Store α) (k : Nat) (v : α) (k' : Nat) :
    Store.get d (Store.set d m k v) k' = if k' = k then v else Store.get d m k' := by
  unfold Store.set
  split
  · next hv =>
    by_cases h : k' = k
    · subst h; simp [Store.get_erase_self, hv]
    · simp [Store.get_erase_ne d m h, h]
  · rw [Store.get_insert d _ k v k' (fun e he => (Store.mem_erase.1 he).2)]
    by_cases h : k' = k
    · simp [h]
    · simp [h, Store.get_erase_ne d m h]

@[simp] theorem Store.get_set_self [DecidableEq α] (d : Nat → α) (m : Store α) (k : Nat) (v : α) :
    Store.get d (Store.set d m k v) k = v := by simp [Store.get_set]

theorem Store.get_set_ne [DecidableEq α] (d : Nat → α) (m : Store α) {k k' : Nat} (v : α) (h : k' ≠ k) :
    Store.get d (Store.set d m k v) k' = Store.get d m k' := by simp [Store.get_set, h]

@[simp] theorem Store.at_put_self [DecidableEq α] (m : Store α) (x : α) (k : Nat) (v : α) : Store.at (Store.put m x k v) x k = v := by
  simp [Store.at, Store.put]

theorem Store.at_put_ne [DecidableEq α] (m : Store α) (x : α) {k k' : Nat} (v : α) (h : k' ≠ k) :
    Store.at (Store.put m x k v) x k' = Store.at m x k' := by
  simp [Store.at, Store.put, Store.get_set, h]

@[simp] theorem Store.at_nil (x : α) (k : Nat) : Store.at ([] : Store α) x k = x := rfl

/-! ### The canonical form -/

/-- Keys strictly rising, as a proposition. -/
theorem Store.wf_iff [DecidableEq α] (d : Nat → α) (m : Store α) :
    Store.wf d m = true ↔ m.Pairwise (fun a b => a.1 < b.1) ∧ ∀ e ∈ m, e.2 ≠ d e.1 := by
  simp [Store.wf, List.pairwise_map]

theorem Store.erase_pairwise {m : Store α} (h : m.Pairwise (fun a b => a.1 < b.1)) (k : Nat) :
    (m.erase k).Pairwise (fun a b => a.1 < b.1) := by
  induction m with
  | nil => exact h
  | cons x m ih =>
    obtain ⟨a, v⟩ := x
    rw [List.pairwise_cons] at h
    simp only [Store.erase]
    split
    · exact ih h.2
    · exact List.pairwise_cons.2 ⟨fun e he => h.1 e (Store.mem_erase.1 he).1, ih h.2⟩

theorem Store.insert_pairwise {m : Store α} (h : m.Pairwise (fun a b => a.1 < b.1)) (k : Nat) (v : α) (hk : ∀ e ∈ m, e.1 ≠ k) :
    (m.insert k v).Pairwise (fun a b => a.1 < b.1) := by
  induction m with
  | nil => simp [Store.insert]
  | cons x m ih =>
    obtain ⟨a, w⟩ := x
    have ha : a ≠ k := hk (a, w) (by simp)
    rw [List.pairwise_cons] at h
    simp only [Store.insert]
    split
    · next hlt =>
      refine List.pairwise_cons.2 ⟨?_, List.pairwise_cons.2 h⟩
      intro e he
      rcases List.mem_cons.1 he with rfl | he
      · exact hlt
      · exact Nat.lt_trans hlt (h.1 e he)
    · next hge =>
      refine List.pairwise_cons.2 ⟨?_, ih h.2 (fun e he => hk e (by simp [he]))⟩
      intro e he
      rcases Store.mem_insert.1 he with rfl | he
      · show a < k; omega
      · exact h.1 e he

/-- Every write keeps the canonical form. -/
theorem Store.set_wf [DecidableEq α] {d : Nat → α} {m : Store α} (h : Store.wf d m = true) (k : Nat) (v : α) :
    Store.wf d (Store.set d m k v) = true := by
  rw [Store.wf_iff] at h ⊢
  unfold Store.set
  split
  · exact ⟨Store.erase_pairwise h.1 k, fun e he => h.2 e (Store.mem_erase.1 he).1⟩
  · next hv =>
    refine ⟨Store.insert_pairwise (Store.erase_pairwise h.1 k) k v (fun e he => (Store.mem_erase.1 he).2), ?_⟩
    intro e he
    rcases Store.mem_insert.1 he with rfl | he
    · exact hv
    · exact h.2 e (Store.mem_erase.1 he).1

/-- A store kept by what its entries satisfy is canonical. -/
theorem Store.filter_wf [DecidableEq α] {d : Nat → α} {m : Store α} (h : Store.wf d m = true) (p : Nat × α → Bool) :
    Store.wf d (m.filter p) = true := by
  rw [Store.wf_iff] at h ⊢
  exact ⟨h.1.filter p, fun e he => h.2 e (List.mem_filter.1 he).1⟩

end Sys2Proof.Machine
end

