-- ==== Sys2Proof/Laws/Reg.lean ====
section
/-!
SUPPORT. Laws/Reg.lean: registers and their fields: what a read gives after a write of the same field, of another field of the
register, and of another register.
-/
namespace Sys2Proof.Machine

/-! ### Bits of a word -/

theorem bitsOf_testBit (v : Reg) (lo w j : Nat) : (bitsOf v lo w).testBit j = (decide (j < w) && v.toNat.testBit (lo + j)) := by
  unfold bitsOf
  rw [Nat.testBit_mod_two_pow, Nat.testBit_div_two_pow, Nat.add_comm]

theorem bitsOf_lt (v : Reg) (lo w : Nat) : bitsOf v lo w < 2 ^ w := Nat.mod_lt _ (by positivity)

/-- A word cut at a field: what lies above it, the field, what lies below it. -/
theorem nat_cut (n lo w : Nat) : n = n / 2 ^ (lo + w) * 2 ^ (lo + w) + n / 2 ^ lo % 2 ^ w * 2 ^ lo + n % 2 ^ lo := by
  have h1 := Nat.div_add_mod n (2 ^ lo)
  have h2 := Nat.div_add_mod (n / 2 ^ lo) (2 ^ w)
  rw [Nat.div_div_eq_div_mul, ← Nat.pow_add] at h2
  rw [Nat.pow_add] at h2 ⊢
  calc n = 2 ^ lo * (n / 2 ^ lo) + n % 2 ^ lo := h1.symm
    _ = 2 ^ lo * (2 ^ w * (n / (2 ^ lo * 2 ^ w)) + n / 2 ^ lo % 2 ^ w) + n % 2 ^ lo := by rw [h2]
    _ = _ := by ring

theorem withBits_toNat (v : Reg) (lo w x : Nat) (h : lo + w ≤ 48) :
    (withBits v lo w x).toNat = 2 ^ lo * (2 ^ w * (v.toNat / 2 ^ (lo + w)) + x % 2 ^ w) + v.toNat % 2 ^ lo := by
  have hn : v.toNat < 2 ^ 48 := v.isLt
  have hc := nat_cut v.toNat lo w
  unfold withBits bitsOf
  rw [BitVec.toNat_ofNat]
  have hx : x % 2 ^ w < 2 ^ w := Nat.mod_lt _ (by positivity)
  have hr : v.toNat % 2 ^ lo < 2 ^ lo := Nat.mod_lt _ (by positivity)
  have hq : v.toNat / 2 ^ (lo + w) < 2 ^ (48 - (lo + w)) := by
    rw [Nat.div_lt_iff_lt_mul (by positivity), ← Nat.pow_add]
    rwa [Nat.sub_add_cancel h]
  have he : v.toNat - v.toNat / 2 ^ lo % 2 ^ w * 2 ^ lo + x % 2 ^ w * 2 ^ lo
      = 2 ^ lo * (2 ^ w * (v.toNat / 2 ^ (lo + w)) + x % 2 ^ w) + v.toNat % 2 ^ lo := by
    have hle : v.toNat - v.toNat / 2 ^ lo % 2 ^ w * 2 ^ lo = v.toNat / 2 ^ (lo + w) * 2 ^ (lo + w) + v.toNat % 2 ^ lo := by omega
    rw [hle, Nat.pow_add]; ring
  rw [he]
  apply Nat.mod_eq_of_lt
  calc 2 ^ lo * (2 ^ w * (v.toNat / 2 ^ (lo + w)) + x % 2 ^ w) + v.toNat % 2 ^ lo
      < 2 ^ lo * (2 ^ w * (v.toNat / 2 ^ (lo + w)) + x % 2 ^ w) + 2 ^ lo := by omega
    _ = 2 ^ lo * (2 ^ w * (v.toNat / 2 ^ (lo + w)) + x % 2 ^ w + 1) := by ring
    _ ≤ 2 ^ lo * (2 ^ w * (v.toNat / 2 ^ (lo + w)) + 2 ^ w) := Nat.mul_le_mul_left _ (by omega)
    _ = 2 ^ (lo + w) * (v.toNat / 2 ^ (lo + w) + 1) := by rw [Nat.pow_add]; ring
    _ ≤ 2 ^ (lo + w) * 2 ^ (48 - (lo + w)) := Nat.mul_le_mul_left _ (by omega)
    _ = 2 ^ 48 := by rw [← Nat.pow_add]; congr 1; omega

theorem withBits_testBit (v : Reg) (lo w x i : Nat) (h : lo + w ≤ 48) :
    (withBits v lo w x).toNat.testBit i = if lo ≤ i ∧ i < lo + w then x.testBit (i - lo) else v.toNat.testBit i := by
  rw [withBits_toNat v lo w x h, Nat.testBit_two_pow_mul_add _ (Nat.mod_lt _ (by positivity))]
  by_cases h1 : i < lo
  · rw [if_pos h1, if_neg (by omega), Nat.testBit_mod_two_pow]; simp [h1]
  · rw [if_neg h1, Nat.testBit_two_pow_mul_add _ (Nat.mod_lt _ (by positivity))]
    by_cases h2 : i < lo + w
    · rw [if_pos (by omega), if_pos (by omega), Nat.testBit_mod_two_pow]
      have : i - lo < w := by omega
      simp [this]
    · rw [if_neg (by omega), if_neg (by omega), Nat.testBit_div_two_pow]
      congr 1; omega

/-- The field written reads the low bits of what was written. -/
theorem bitsOf_withBits_self (v : Reg) (lo w x : Nat) (h : lo + w ≤ 48) : bitsOf (withBits v lo w x) lo w = x % 2 ^ w := by
  apply Nat.eq_of_testBit_eq
  intro j
  rw [bitsOf_testBit, withBits_testBit v lo w x _ h, Nat.testBit_mod_two_pow]
  by_cases hj : j < w
  · rw [if_pos (by omega)]; simp [hj]
  · simp [hj]

/-- A field beside the one written reads as before. -/
theorem bitsOf_withBits_disjoint (v : Reg) (lo w x lo' w' : Nat) (h : lo + w ≤ 48) (hd : lo + w ≤ lo' ∨ lo' + w' ≤ lo) :
    bitsOf (withBits v lo w x) lo' w' = bitsOf v lo' w' := by
  apply Nat.eq_of_testBit_eq
  intro j
  rw [bitsOf_testBit, bitsOf_testBit, withBits_testBit v lo w x _ h]
  by_cases hj : j < w'
  · rw [if_neg (by omega)]
  · simp [hj]

/-! ### Registers -/

theorem State.reg_setReg (s : State) (k : Nat) (v : Reg) (k' : Nat) : (s.setReg k v).reg k' = if k' = k then v else s.reg k' := by
  simp [State.reg, State.setReg, Store.get_set]

@[simp] theorem State.reg_setReg_self (s : State) (k : Nat) (v : Reg) : (s.setReg k v).reg k = v := by simp [State.reg_setReg]

theorem State.reg_setReg_ne (s : State) {k k' : Nat} (v : Reg) (h : k' ≠ k) : (s.setReg k v).reg k' = s.reg k' := by
  simp [State.reg_setReg, h]

theorem State.shadowReg_setShadow (s : State) (k : Nat) (v : Reg) (k' : Nat) :
    (s.setShadow k v).shadowReg k' = if k' = k then v else s.shadowReg k' := by
  simp [State.shadowReg, State.setShadow, Store.get_set]

/-- The registers of two states with the same register store read the same. -/
theorem State.reg_congr {s t : State} (h : s.regs = t.regs) (k : Nat) : s.reg k = t.reg k := by simp [State.reg, h]

theorem State.fld_congr {s t : State} (h : s.regs = t.regs) (f : Fld) : s.fld f = t.fld f := by simp [State.fld, State.reg_congr h]

theorem State.fld_lt (s : State) (f : Fld) : s.fld f < 2 ^ f.w := bitsOf_lt _ _ _

/-- A field written reads the low bits of what was written. -/
theorem State.fld_setFld_self (s : State) (f : Fld) (v : Nat) (h : f.lo + f.w ≤ 48) : (s.setFld f v).fld f = v % 2 ^ f.w := by
  simp [State.fld, State.setFld, bitsOf_withBits_self _ _ _ _ h]

/-- A field of another register reads as before. -/
theorem State.fld_setFld_key (s : State) (f g : Fld) (v : Nat) (h : g.key ≠ f.key) : (s.setFld f v).fld g = s.fld g := by
  simp [State.fld, State.setFld, State.reg_setReg, h]

/-- Another field of the same register reads as before. -/
theorem State.fld_setFld_bits (s : State) (f g : Fld) (v : Nat) (h : f.lo + f.w ≤ 48) (hd : f.lo + f.w ≤ g.lo ∨ g.lo + g.w ≤ f.lo) :
    (s.setFld f v).fld g = s.fld g := by
  by_cases hk : g.key = f.key
  · simp [State.fld, State.setFld, hk, bitsOf_withBits_disjoint _ _ _ _ _ _ h hd]
  · exact State.fld_setFld_key s f g v hk

/-- A field that shares no bit of no register with the one written reads as before. -/
theorem State.fld_setFld_ne (s : State) (f g : Fld) (v : Nat) (h : f.lo + f.w ≤ 48)
    (hd : g.key ≠ f.key ∨ f.lo + f.w ≤ g.lo ∨ g.lo + g.w ≤ f.lo) : (s.setFld f v).fld g = s.fld g := by
  rcases hd with hd | hd
  · exact State.fld_setFld_key s f g v hd
  · exact State.fld_setFld_bits s f g v h hd

theorem State.reg_setFld_ne (s : State) (f : Fld) (v k : Nat) (h : k ≠ f.key) : (s.setFld f v).reg k = s.reg k := by
  simp [State.setFld, State.reg_setReg, h]

/-- Every register write keeps the canonical form of the register store. -/
theorem State.setReg_wf {s : State} (h : Store.wf resetValue s.regs = true) (k : Nat) (v : Reg) :
    Store.wf resetValue (s.setReg k v).regs = true := Store.set_wf h k v

theorem State.setFld_wf {s : State} (h : Store.wf resetValue s.regs = true) (f : Fld) (v : Nat) :
    Store.wf resetValue (s.setFld f v).regs = true := State.setReg_wf h _ _

theorem State.raise_wf {s : State} (h : Store.wf resetValue s.regs = true) (b k : Nat) :
    Store.wf resetValue (s.raise b k).regs = true := State.setFld_wf h _ _

/-! ### Events -/

theorem bitAt_eq_testBit (a i : Nat) : bitAt a i = a.testBit i := by
  simp only [bitAt, Nat.testBit_eq_decide_div_mod_eq]

/-- Setting a bit is an or. -/
theorem orBit_eq_or (x k : Nat) : orBit x k = x ||| 2 ^ k := by
  unfold orBit
  rw [bitAt_eq_testBit]
  split
  · next h =>
    apply Nat.eq_of_testBit_eq; intro i
    by_cases hi : k = i
    · subst hi; simp [h]
    · simp [Nat.testBit_or, hi]
  · next h =>
    have hd := Nat.div_add_mod x (2 ^ (k + 1))
    have hr : x % 2 ^ (k + 1) < 2 ^ k := by
      have hb : (x % 2 ^ (k + 1)).testBit k = false := by rw [Nat.testBit_mod_two_pow]; simpa using h
      have hlt : x % 2 ^ (k + 1) < 2 ^ (k + 1) := Nat.mod_lt _ (by positivity)
      apply Nat.lt_pow_two_of_testBit
      intro i hi
      rcases Nat.eq_or_lt_of_le hi with rfl | hi
      · exact hb
      · exact Nat.testBit_lt_two_pow (Nat.lt_of_lt_of_le hlt (Nat.pow_le_pow_right (by omega) hi))
    have h2 : 2 ^ k + x % 2 ^ (k + 1) < 2 ^ (k + 1) := by have := Nat.pow_succ (n := 2) (m := k); omega
    have e1 : x + 2 ^ k = 2 ^ (k + 1) * (x / 2 ^ (k + 1)) + (2 ^ k + x % 2 ^ (k + 1)) := by omega
    have e2 : 2 ^ k + x % 2 ^ (k + 1) = 2 ^ k ||| x % 2 ^ (k + 1) := by
      have := Nat.two_pow_add_eq_or_of_lt hr 1
      simpa using this
    rw [e1, Nat.two_pow_add_eq_or_of_lt h2, e2, ← Nat.or_assoc, Nat.or_right_comm,
      ← Nat.two_pow_add_eq_or_of_lt (Nat.mod_lt _ (by positivity)), hd]

theorem bitAt_orBit (x k j : Nat) : bitAt (orBit x k) j = (bitAt x j || decide (j = k)) := by
  rw [bitAt_eq_testBit, bitAt_eq_testBit, orBit_eq_or, Nat.testBit_or, Nat.testBit_two_pow]
  by_cases h : k = j <;> simp [h, eq_comm]

theorem orBit_lt {x k w : Nat} (hx : x < 2 ^ w) (hk : k < w) : orBit x k < 2 ^ w := by
  rw [orBit_eq_or]
  exact Nat.or_lt_two_pow hx (Nat.pow_lt_pow_right (by omega) hk)

/-- An event's own bit of PG_EVENT is set; the page's other bits, and every other field, stand. -/
theorem State.fld_raise_self (s : State) (b k : Nat) (hk : k < 16) :
    (s.raise b k).fld (PG_EVENT_EVENTS b) = orBit (s.fld (PG_EVENT_EVENTS b)) k := by
  have hlt : s.fld (PG_EVENT_EVENTS b) < 2 ^ 16 := s.fld_lt _
  unfold State.raise
  rw [State.fld_setFld_self _ _ _ (by show 0 + 16 ≤ 48; decide)]
  exact Nat.mod_eq_of_lt (orBit_lt hlt hk)

theorem State.fld_raise_ne (s : State) (b k : Nat) (g : Fld) (h : g.key ≠ b + 0x20) : (s.raise b k).fld g = s.fld g :=
  State.fld_setFld_key s _ g _ h

theorem State.reg_raise_ne (s : State) (b k j : Nat) (h : j ≠ b + 0x20) : (s.raise b k).reg j = s.reg j :=
  State.reg_setFld_ne s _ _ j h

/-! ### Counts -/

theorem State.fld_satFld_self (s : State) (f : Fld) (n : Nat) (h : f.lo + f.w ≤ 48) :
    (s.satFld f n).fld f = min (2 ^ f.w - 1) (s.fld f + n) := by
  have hp : 0 < 2 ^ f.w := by positivity
  unfold State.satFld satAdd
  rw [State.fld_setFld_self _ _ _ h, Nat.add_comm n]
  exact Nat.mod_eq_of_lt (by omega)

theorem State.fld_wrapFld_self (s : State) (f : Fld) (n : Nat) (h : f.lo + f.w ≤ 48) :
    (s.wrapFld f n).fld f = (s.fld f + n) % 2 ^ f.w := by
  unfold State.wrapFld wrapAdd
  rw [State.fld_setFld_self _ _ _ h, Nat.mod_mod, Nat.add_comm n]

theorem State.accAt_setAcc (s : State) (k v k' : Nat) : (s.setAcc k v).accAt k' = if k' = k then v else s.accAt k' := by
  simp [State.accAt, State.setAcc, Store.at, Store.put, Store.get_set]

/-! ### The end of a command -/

/-- The next state of `finish`. -/
def finished (s t : State) : State := { bump s t with pending := s.pending }

theorem finish_eq (s t : State) : finish s t = .next (finished s t) := rfl

@[simp] theorem finished_pending (s t : State) : (finished s t).pending = s.pending := rfl

theorem finished_regs (s t : State) : (finished s t).regs = t.regs := rfl

@[simp] theorem finished_reg (s t : State) (k : Nat) : (finished s t).reg k = t.reg k := rfl

@[simp] theorem finished_fld (s t : State) (f : Fld) : (finished s t).fld f = t.fld f := rfl

/-- The pending set of two states with the same registers and READY. -/
theorem State.pendingSet_congr {s t : State} (h : s.regs = t.regs) (hr : s.ready = t.ready) : s.pendingSet = t.pendingSet := by
  simp [State.pendingSet, State.pendingBits, State.inService, State.fld, State.reg, h, hr]

/-- A finished command moves the attention generation, as its effect left it, by one exactly when it changed the pending set (R92, R124). -/
theorem finished_attnGen (s t : State) :
    (finished s t).attnGen = if (finished s t).pendingSet = s.pendingSet then t.attnGen else (t.attnGen + 1) % 2 ^ 32 := by
  have h : (finished s t).pendingSet = t.pendingSet := State.pendingSet_congr rfl rfl
  rw [h]; rfl

end Sys2Proof.Machine
end

