-- ==== Sys2Proof/Laws/Access.lean ====
section
/-!
SUPPORT. Laws/Access.lean: what a write or a read of a register does once it passes every gate, and how a command over a path ends.
-/
namespace Sys2Proof.Machine

/-- A write that passes every gate is the register's own behaviour when that accepts it. -/
theorem hostWrite_open {path : Path} {addr : Nat} {s : State} (h : Safety.Open path addr s) (data : Reg) (m : Bool) (op : RegOp)
    (hok : (op s).2 = .ok) : hostWrite path addr data true m op s = applied addr data m op s := by
  have ha : (applied addr data m op s).2 = .ok := by unfold applied; dsimp only; split <;> simp [hok]
  cases path
  · obtain ⟨hr, hg⟩ := h
    unfold hostWrite pcieWrite
    simp only [hr, Bool.true_eq_false, if_false]
    rcases hg with hk | ⟨hf, hans, hsv⟩
    · simp [hk, ha, noteCode, Prod.ext_iff]
    · by_cases hk : baseOf addr = Pg.kpr
      · simp [hk, ha, noteCode, Prod.ext_iff]
      · by_cases hi : s.inService = true
        · simp [hk, hf, hi, (hsv hi).1, (hsv hi).2, ha, noteCode, Prod.ext_iff]
        · have hi : s.inService = false := by simpa using hi
          have hans : s.answers (baseOf addr) = true := by simpa [hi] using hans
          simp [hk, hf, hi, hans, ha, noteCode, Prod.ext_iff]
  · obtain ⟨hr, hans, hsv⟩ := h
    unfold hostWrite uasynPathWrite
    by_cases hi : s.inService = true
    · simp [hr, hi, (hsv hi).1, (hsv hi).2, ha, Prod.ext_iff]
    · have hi : s.inService = false := by simpa using hi
      rcases hans with hk | hans | hc
      · simp [hr, hi, hk, ha, Prod.ext_iff]
      · simp [hr, hi, hans, ha, Prod.ext_iff]
      · simp [hi] at hc
  · obtain ⟨hi, hf, hg⟩ := h
    unfold hostWrite ringWrite
    rcases hg with hk | ⟨h1, h2⟩
    · simp [hi, hf, hk, ha, noteCode, Prod.ext_iff]
    · simp [hi, hf, h1, h2, ha, noteCode, Prod.ext_iff]
  · obtain ⟨hi, hf, h1, hk, h2⟩ := h
    unfold hostWrite coreWrite
    simp [hi, hf, h1, hk, h2]

/-- The registers after an accepted write are those its behaviour leaves: the measurement touches none. -/
theorem applied_regs (addr : Nat) (data : Reg) (m : Bool) (op : RegOp) (s : State) : (applied addr data m op s).1.regs = (op s).1.regs := by
  unfold applied; dsimp only; split <;> rfl

/-- An accepted write changes no more than its behaviour does, but for the configuration measurement. -/
theorem applied_eq (addr : Nat) (data : Reg) (m : Bool) (op : RegOp) (s : State) :
    (applied addr data m op s).1 = { (op s).1 with sec := (applied addr data m op s).1.sec } := by
  unfold applied; dsimp only; split <;> rfl

/-- The end of a write: the queue as it was, every field but the attention generation, the replies and the free values' counter as the write left
it. -/
theorem finishWrite_next (path : Path) (s : State) (r : State × Code) :
    ∃ t, finishWrite path s r = .next t ∧ t = { r.1 with attnGen := t.attnGen, replies := t.replies, free := t.free, pending := s.pending } := by
  unfold finishWrite done
  cases path <;> first
    | exact ⟨_, rfl, rfl⟩
    | (refine ⟨_, rfl, ?_⟩; split <;> rfl)

/-- A write that is accepted ends in a next state that holds what its behaviour leaves. -/
theorem write_ends {path : Path} {addr : Nat} {s : State} (h : Safety.Open path addr s) (data : Reg) (m : Bool) (op : RegOp)
    (hok : (op s).2 = .ok) :
    ∃ t, finishWrite path s (hostWrite path addr data true m op s) = .next t
      ∧ t = { (op s).1 with attnGen := t.attnGen, replies := t.replies, free := t.free, sec := t.sec, pending := s.pending } := by
  rw [hostWrite_open h data m op hok]
  obtain ⟨t, ht, he⟩ := finishWrite_next path s (applied addr data m op s)
  refine ⟨t, ht, ?_⟩
  rw [applied_eq] at he
  rw [he]

/-- A read that passes every gate answers what the register answers; a kept CODE may be delivered in place of OK. -/
theorem hostRead_open {path : Path} {addr : Nat} {s : State} (h : Safety.OpenRead path addr s) (run : ReadOp) :
    hostRead path addr true run s = run s ∨ hostRead path addr true run s = deliverCode addr (run s) := by
  obtain ⟨-, h⟩ := h
  cases path
  · unfold hostRead pcieRead
    rcases h with hk | ⟨hans, hf, hr⟩
    · simp [hk]
    · by_cases hk : baseOf addr = Pg.kpr
      · simp [hk]
      · by_cases hi : s.inService = true
        · simp [hk, hi, hr hi, hf]
        · have hi : s.inService = false := by simpa using hi
          have hans : s.answers (baseOf addr) = true := by simpa [hi] using hans
          simp [hk, hi, hans, hf]
  · unfold hostRead uasynPathRead
    by_cases ha : addr % 0x1000 = 0x38
    · rcases h with hk | hans | hi
      · simp [hk, ha]
      · simp [hans, ha]
      · simp [hi, ha]
    · by_cases hb : addr = 0x700048
      · rcases h with hk | hans | hi
        · rw [hb] at hk; simp [hk, hb]
        · rw [hb] at hans; simp [hans, hb]
        · simp [hi, hb]
      · rcases h with hk | hans | hi
        · simp [hk, ha, hb]
        · simp [hans, ha, hb]
        · simp [hi, ha, hb]
  · unfold hostRead pcieRead
    rcases h with hk | ⟨hans, hf, hr⟩
    · simp [hk]
    · by_cases hk : baseOf addr = Pg.kpr
      · simp [hk]
      · by_cases hi : s.inService = true
        · simp [hk, hi, hr hi, hf]
        · have hi : s.inService = false := by simpa using hi
          have hans : s.answers (baseOf addr) = true := by simpa [hi] using hans
          simp [hk, hi, hans, hf]
  · obtain ⟨hi, hf, h1, hk, h2⟩ := h
    unfold hostRead coreRead
    simp [hi, hf, h1, hk, h2]

/-- The end of a read over a path that reaches the module: the reply's data, and every field but the attention generation, the replies and the
free values' counter as the read left it. -/
theorem finishRead_next {path : Path} {s : State} (hr : s.reaches path = true) (r : State × Reg × Code) :
    ∃ t, finishRead path s r = .next t ∧ t.replies.data = r.2.1
      ∧ t = { r.1 with attnGen := t.attnGen, replies := t.replies, free := t.free, pending := s.pending } := by
  have ha : ∀ (op : Nat) (c : Code) (d : Reg) (u : State), (answerAccess op c d u).replies.data = d
      ∧ answerAccess op c d u = { u with replies := (answerAccess op c d u).replies, free := (answerAccess op c d u).free } :=
    fun _ _ _ _ => ⟨rfl, rfl⟩
  unfold finishRead done
  rw [if_neg (by simp [hr])]
  cases path
  case uasyn =>
    refine ⟨_, rfl, (ha 1 r.2.2 r.2.1 (bump s r.1)).1, ?_⟩
    have h2 := (ha 1 r.2.2 r.2.1 (bump s r.1)).2
    generalize answerAccess 1 r.2.2 r.2.1 (bump s r.1) = u at h2
    dsimp only
    rw [h2]
    unfold bump
    rfl
  all_goals exact ⟨_, rfl, rfl, rfl⟩

/-- A delivered CODE changes the replies alone, and never the data. -/
theorem deliverCode_eq (addr : Nat) (r : State × Reg × Code) : (deliverCode addr r).2.1 = r.2.1
    ∧ (deliverCode addr r).1 = { r.1 with replies := (deliverCode addr r).1.replies } := by
  unfold deliverCode; dsimp only; split <;> exact ⟨rfl, rfl⟩

/-- A read that passes every gate ends in a next state with the register's data as the reply, and of its state all but the replies. -/
theorem read_ends {path : Path} {addr : Nat} {s : State} (h : Safety.OpenRead path addr s) (run : ReadOp) :
    ∃ t, finishRead path s (hostRead path addr true run s) = .next t ∧ t.replies.data = (run s).2.1
      ∧ t = { (run s).1 with attnGen := t.attnGen, replies := t.replies, free := t.free, pending := s.pending } := by
  obtain ⟨t, ht, hd, he⟩ := finishRead_next h.1 (hostRead path addr true run s)
  refine ⟨t, ht, ?_⟩
  rcases hostRead_open h run with hw | hw <;> rw [hw] at hd he
  · exact ⟨hd, he⟩
  · refine ⟨hd.trans (deliverCode_eq addr _).1, ?_⟩
    rw [(deliverCode_eq addr (run s)).2] at he
    exact he

end Sys2Proof.Machine
end

