-- ==== Sys2Proof/Laws/Memory.lean ====
section
/-!
SUPPORT. Laws/Memory.lean: the byte memories: a read after a write, and that every memory operation keeps the canonical form.
-/
namespace Sys2Proof.Machine

/-- The bytes from `a` read as written, every other byte as before. -/
theorem Memory.read1_write (bs : List Byte) : ∀ (m : List Host.Cell) (a b : Nat),
    Memory.read1 (Memory.write m a bs) b = if a ≤ b ∧ b < a + bs.length then bs.getD (b - a) 0 else Memory.read1 m b := by
  induction bs with
  | nil => intro m a b; simp [Memory.write]
  | cons x bs ih =>
    intro m a b
    rw [Memory.write, ih]
    by_cases h : a + 1 ≤ b ∧ b < a + 1 + bs.length
    · have h2 : a ≤ b ∧ b < a + (x :: bs).length := by simp; omega
      obtain ⟨k, hk⟩ : ∃ k, b - a = k + 1 := ⟨b - a - 1, by omega⟩
      have h3 : b - (a + 1) = k := by omega
      rw [if_pos h, if_pos h2, hk, h3]; rfl
    · rw [if_neg h, Memory.read1, Store.get_set]
      by_cases hb : b = a
      · subst hb; simp
      · have h2 : ¬(a ≤ b ∧ b < a + (x :: bs).length) := by simp; omega
        rw [if_neg hb, if_neg h2]; rfl

/-- A byte outside what is stored reads as before. -/
theorem Memory.read1_write_outside (m : List Host.Cell) (a b : Nat) (bs : List Byte) (h : b < a ∨ a + bs.length ≤ b) :
    Memory.read1 (Memory.write m a bs) b = Memory.read1 m b := by
  rw [Memory.read1_write, if_neg (by omega)]

/-- Storing bytes keeps the canonical form. -/
theorem Memory.write_wf (bs : List Byte) : ∀ {m : List Host.Cell} (_ : Memory.wf m = true) (a : Nat), Memory.wf (Memory.write m a bs) = true := by
  induction bs with
  | nil => intro m h a; exact h
  | cons x bs ih => intro m h a; exact ih (Store.set_wf h a x) (a + 1)

/-- Clearing a range keeps the canonical form. -/
theorem Memory.clear_wf {m : List Host.Cell} (h : Memory.wf m = true) (lo hi : Nat) : Memory.wf (Memory.clear m lo hi) = true :=
  Store.filter_wf h _

@[simp] theorem Memory.read_length (m : List Host.Cell) (a n : Nat) : (Memory.read m a n).length = n := by simp [Memory.read]

@[simp] theorem leBytes_length (n : Nat) : ∀ x, (leBytes n x).length = n := by
  induction n with
  | zero => intro x; rfl
  | succ n ih => intro x; simp [leBytes, ih]

/-- Little-endian bytes read back as the number, within their width. -/
theorem leNat_leBytes (n : Nat) : ∀ x, leNat (leBytes n x) = x % 256 ^ n := by
  induction n with
  | zero => intro x; simp [leBytes, leNat, Nat.mod_one]
  | succ n ih =>
    intro x
    have h : x % 256 ^ (n + 1) = x % 256 + 256 * (x / 256 % 256 ^ n) := by
      rw [Nat.pow_succ, Nat.mul_comm (256 ^ n) 256, Nat.mod_mul]
    simp [leBytes, leNat, ih, h, BitVec.toNat_ofNat]

end Sys2Proof.Machine
end

