-- ==== Sys2Proof/Laws/Nal.lean ====
section
/-!
SUPPORT. Laws/Nal.lean: the size of a slice's NAL unit, and what the bits of a stripe do not depend on.
-/
namespace Sys2Proof.Machine

/-- Emulation prevention at most doubles a NAL unit's bytes. -/
theorem escaped_length_le (l : List Byte) : ∀ z, (escaped z l).length ≤ 2 * l.length + 1 := by
  induction l with
  | nil => intro z; unfold escaped; split <;> simp
  | cons b l ih =>
    intro z
    unfold escaped
    split
    · have := ih (if b = 0 then 1 else 0); simp only [List.length_cons]; omega
    · have := ih (if b = 0 then z + 1 else 0); simp only [List.length_cons]; omega

@[simp] theorem nalHeader_length (hevc : Bool) (type temporal : Nat) : (nalHeader hevc type temporal).length = 2 := by
  unfold nalHeader beBytes
  split <;> rw [List.length_reverse, leBytes_length]

/-- A slice's NAL unit is bounded by its data: its header's bytes are at most `headerMost`. -/
theorem nalBytes_slice_length_le (hevc gdr : Bool) (n : Nal) (h : n.kind = .slice) :
    (nalBytes hevc gdr n).length ≤ 2 * n.body.length + 403 := by
  unfold nalBytes
  rw [List.length_append, nalHeader_length, h]
  generalize Config.syntaxBytes _ _ _ = l
  have k := escaped_length_le
    ((if NalKind.slice = .slice then l.take headerMost else l) ++ n.body ++ (if NalKind.isSei .slice then [0x80] else [])) 0
  have m := List.length_take_le headerMost l
  simp only [List.length_append, if_true, NalKind.isSei, Bool.false_eq_true, if_false, List.length_nil, headerMost] at k m ⊢
  omega

/-- The bits of a slice are bounded by its data. -/
theorem State.sliceBits_le (s : State) (o k : Nat) (p : CodedPic) (data : List Byte) : s.sliceBits o k p data ≤ 16 * data.length + 3224 := by
  have h := nalBytes_slice_length_le (s.hevc o) (s.opensPeriod o p.index) { kind := .slice, fields := s.sliceFields o k p, body := data } rfl
  unfold State.sliceBits
  generalize List.length (nalBytes _ _ _) = x at *
  simp only at h
  omega

/-- The header of a stripe does not depend on what the bays run. -/
theorem State.stripeHeader_bays (s : State) (b : List (Nat × BayRun)) (t : Task) : State.stripeHeader { s with bays := b } t = s.stripeHeader t := rfl

/-- The bits of a stripe do not depend on what the bays run. -/
theorem State.stripeBits_bays (s : State) (b : List (Nat × BayRun)) (o k : Nat) (p : CodedPic) (data : List Byte) :
    State.stripeBits { s with bays := b } o k p data = s.stripeBits o k p data := rfl

end Sys2Proof.Machine
end

