-- ==== Sys2Proof/WellFormed.lean ====
section
/-!
DEFINITION. WellFormed.lean: which commands can be sent at all: operands within what the pins, wires and packets they came by can
carry. `exec` is total and does not use this; the statements that need a bound name it.
-/
namespace Sys2Proof

/-- Bytes one memory write over the PCIe port carries in one command: a packet's payload (R98). -/
def maxPayload : Nat := 4096

/-- A rail sample within the widths of KPR.RAIL_STAT (R37). -/
def railWf (mv da av ca : Nat) : Bool := decide (mv < 4096 ∧ da < 4096 ∧ av < 4096 ∧ ca < 4096)

/-- A received frame's length in bytes (R204). -/
def frameWf (f : RxFrame) : Bool := decide (1 ≤ f.size ∧ f.size ≤ 16384 ∧ f.tags ≤ 8)

/-- A video packet's header fields within their widths (R209, R218): 7-bit payload type, 32-bit timestamp and extended sequence
number. -/
def packetWf (p : VideoPacket) : Bool :=
  decide (p.pt < 128 ∧ p.rtp < 4294967296 ∧ p.seq < 4294967296) && p.srds.all (fun d => decide (d.line < 32768 ∧ d.pixel < 32768))

/-- Whether a command is one that a sender can send. -/
def Instr.wf : Instr → Bool
  | .vinAuxRise => true
  | .vinMainRise => true
  | .resetNRise => true
  | .resetNLow ns => decide (0 < ns)
  | .vinAuxLoss => true
  | .railCheck a b c d => railWf a b c d
  | .pciePerstNChange _ => true
  | .thermalSample _ _ _ => true
  | .throttleEntry => true
  | .throttleRelease => true
  | .thermalTrip => true
  | .bootRomReady => true
  | .stageWriteBar2 off bytes => decide (0 < bytes.length ∧ bytes.length ≤ maxPayload ∧ off.toNat + bytes.length ≤ 268435456)
  | .stageDataWrite _ _ => true
  | .bootGo _ => true
  | .verifyDone _ => true
  | .initDone _ _ _ _ _ => true
  | .initStepTimeout _ _ => true
  | .rbCommit _ => true
  | .ownerProg _ _ => true
  | .fuseProgDone => true
  | .attGo _ => true
  | .attReportDone => true
  | .attDataRead _ => true
  | .otpDataRead _ => true
  | .registerWrite _ _ _ size _ _ => decide (1 ≤ size ∧ size ≤ maxPayload)
  | .bar0BadSizeRead _ size _ => decide (1 ≤ size ∧ size ≤ maxPayload)
  | .bar2Read off len _ => decide (0 < len ∧ len ≤ maxPayload ∧ off.toNat + len ≤ 268435456)
  | .bar2Write off bytes _ => decide (0 < bytes.length ∧ bytes.length ≤ maxPayload ∧ off.toNat + bytes.length ≤ 268435456)
  | .bar4Read off len => decide (0 < len ∧ len ≤ maxPayload ∧ off.toNat + len ≤ 1048576)
  | .bar4Write off bytes => decide (0 < bytes.length ∧ bytes.length ≤ maxPayload ∧ off.toNat + bytes.length ≤ 1048576)
  | .uasynRead _ => true
  | .uasynWrite _ => true
  | .uasynFrameAbort bits => decide (0 < bits)
  | .shadowArm _ _ _ => true
  | .shadowDisarm _ _ _ _ => true
  | .shadowCommit _ => true
  | .softReset _ _ => true
  | .eventClear _ _ _ _ => true
  | .commandFetch _ => true
  | .regWriteList l _ => decide (0 < l.length)
  | .regReadList l _ => decide (0 < l.length)
  | .hbmRead _ => true
  | .hbmWrite _ _ => true
  | .arcSetSei _ => true
  | .heartbeat => true
  | .defaultHit _ _ => true
  | .fabTimeout _ _ _ => true
  | .masterViolation _ _ _ _ => true
  | .drainDone _ => true
  | .thaw _ _ _ => true
  | .keeperBridgeTimeout _ => true
  | .pcieHotReset => true
  | .pcieD3hot => true
  | .pcieD0Return => true
  | .pcieLinkUp r w => decide (1 ≤ r ∧ r ≤ 5 ∧ (w = 1 ∨ w = 2 ∨ w = 4 ∨ w = 8))
  | .ptpSecond => true
  | .pllLoss _ _ => true
  | .offsetSample _ _ _ _ _ => true
  | .delaySample _ _ _ _ _ _ _ _ _ => true
  | .pathHoldEnd => true
  | .announceReceive _ _ => true
  | .sourceLost _ => true
  | .delayReqSend _ => true
  | .timeStep _ _ _ => true
  | .ptpModeWrite _ _ => true
  | .ptpCfgWrite _ _ => true
  | .refPeriodEnd _ => true
  | .refQualified => true
  | .refEdgeOffset => true
  | .laneCalDone _ _ => true
  | .signalDetect _ => true
  | .cdrLock _ => true
  | .adaptConverged _ _ => true
  | .alignComplete _ => true
  | .adaptFail _ => true
  | .linkDown _ _ => true
  | .idleFreeze _ _ _ => true
  | .adaptResume _ _ => true
  | .speedChangeRelock _ => true
  | .deepRestExit _ => true
  | .laneTestWrite _ _ _ => true
  | .laneEnableWrite _ _ _ => true
  | .frameReceive _ f => frameWf f
  | .ingPacket _ _ p => packetWf p
  | .legQuiet _ _ => true
  | .lineMergeTimeout _ _ _ => true
  | .stripeWindowClose _ _ _ => true
  | .stripeAnnounce _ _ => true
  | .announcementRelease => true
  | .chinReacquire _ _ => true
  | .pafPassDone _ _ _ _ => true
  | .lutLoad _ _ _ => true
  | .lutLoadDone _ _ _ _ => true
  | .pictureBoundary _ => true
  | .rebuildDone _ => true
  | .poolPeriod _ => true
  | .dispatchTask _ => true
  | .relevelTick => true
  | .landing _ _ _ => true
  | .stripeComplete _ _ => true
  | .startLimitExpiry _ => true
  | .deadlineExpiry _ => true
  | .budgetBreach _ _ => true
  | .residueMismatch _ => true
  | .replayDone _ _ _ => true
  | .lockstepFault _ => true
  | .floorSynthStart => true
  | .floorSynthDone _ => true
  | .assemblyDone _ _ => true
  | .bayEnableWrite _ _ _ => true
  | .spanRequest _ _ _ => true
  | .spanBoundary => true
  | .mezzTaskDone _ _ => true
  | .mzFloorPoint _ => true
  | .mzmapLoad _ _ _ => true
  | .mzmapLoadDone _ _ _ => true
  | .mzeEnableWrite _ _ _ => true
  | .packetTaskDone _ => true
  | .packetRelease _ => true
  | .spillReturn _ => true
  | .frameSelect _ => true
  | .gateEntryChange _ => true
  | .gateListStart _ => true
  | .abortPending _ _ _ => true
  | .shapeWrite _ _ _ => true
  | .crcFeed _ _ _ => true
  | .crcReset _ _ _ => true
  | .valloRead _ _ => true
  | .scanStart _ _ => true
  | .scanDone => true
  | .scanError _ _ => true
  | .scanAbort _ fed _ => decide (fed < 34359738368)
  | .counterWrap _ _ => true
  | .clearAll _ => true
  | .timeSecRead _ => true
  | .offsetSecRead _ => true
  | .flogW0Read _ => true
  | .galleryReadEcc _ _ _ => true
  | .eccWriteback _ _ => true
  | .scrubWord _ _ => true
  | .hbmReadEcc _ _ _ _ _ => true
  | .hbmRereadDone _ _ _ => true
  | .refreshIntervalEnd _ => true
  | .refreshDone _ => true
  | .hbmTempCrossing _ _ => true
  | .selfRefreshEntry _ => true
  | .selfRefreshExit _ _ => true
  | .writeBatch _ => true
  | .mergeReadDone _ _ => true
  | .micAbsent _ => true
  | .micResume _ => true
  | .tdmFrameStart _ bclks slots => decide (slots.length ≤ bclks + 1)
  | .portStall _ => true
  | .wclkPeriodEnd _ => true
  | .tdmEnableWrite _ _ _ => true
  | .watchdogExpiry _ _ => true
  | .warmReset _ _ => true
  | .coldReset _ _ => true
  | .coldResetResume => true
  | .vinMainLoss => true
  | .watchdogProgress _ => true
  | .faultRecentExpiry _ => true
  | .ppsOutFall => true
  | .eyeMeasurement _ _ _ => true

end Sys2Proof
end

