-- ==== Sys2Proof/Laws/PerInstr.lean ====
section
/-!
SUPPORT. Laws/PerInstr.lean: a well-formed access through BAR2 or BAR4 carries 1 to 4,096 bytes and stays inside its BAR (R57, R66, R95, R96).
-/
namespace Sys2Proof

/-- The place, length and BAR size of a command that is an access through BAR2 or BAR4, a bulk access. -/
def Laws.Wf.reach : Instr → Option (Nat × Nat × Nat)
  | .stageWriteBar2 off bytes => some (off.toNat, bytes.length, 268435456)
  | .bar2Read off len _ => some (off.toNat, len, 268435456)
  | .bar2Write off bytes _ => some (off.toNat, bytes.length, 268435456)
  | .bar4Read off len => some (off.toNat, len, 1048576)
  | .bar4Write off bytes => some (off.toNat, bytes.length, 1048576)
  | _ => none

/-- A well-formed command's bulk access lies in its BAR and carries what one packet can. -/
def Laws.Wf.Statement (i : Instr) : Prop :=
  i.wf = true → ∀ r, Laws.Wf.reach i = some r → 1 ≤ r.2.1 ∧ r.2.1 ≤ maxPayload ∧ r.1 + r.2.1 ≤ r.2.2

/-- A command that is no bulk access. -/
theorem Laws.Wf.of_none {i : Instr} (h : Laws.Wf.reach i = none) : Laws.Wf.Statement i := by
  intro _ r hr; rw [h] at hr; cases hr

theorem Laws.Wf.vinAuxRise : Laws.Wf.Statement (.vinAuxRise) := Laws.Wf.of_none rfl

theorem Laws.Wf.vinMainRise : Laws.Wf.Statement (.vinMainRise) := Laws.Wf.of_none rfl

theorem Laws.Wf.resetNRise : Laws.Wf.Statement (.resetNRise) := Laws.Wf.of_none rfl

theorem Laws.Wf.resetNLow : ∀ (ns : Nat), Laws.Wf.Statement (.resetNLow ns) := fun _ => Laws.Wf.of_none rfl

theorem Laws.Wf.vinAuxLoss : Laws.Wf.Statement (.vinAuxLoss) := Laws.Wf.of_none rfl

theorem Laws.Wf.railCheck : ∀ (mainMv mainDa auxMv auxCa : Nat), Laws.Wf.Statement (.railCheck mainMv mainDa auxMv auxCa) := fun _ _ _ _ => Laws.Wf.of_none rfl

theorem Laws.Wf.pciePerstNChange : ∀ (high : Bool), Laws.Wf.Statement (.pciePerstNChange high) := fun _ => Laws.Wf.of_none rfl

theorem Laws.Wf.thermalSample : ∀ (die : Vector (BitVec 8) 16) (hbm0 hbm1 : BitVec 8), Laws.Wf.Statement (.thermalSample die hbm0 hbm1) := fun _ _ _ => Laws.Wf.of_none rfl

theorem Laws.Wf.throttleEntry : Laws.Wf.Statement (.throttleEntry) := Laws.Wf.of_none rfl

theorem Laws.Wf.throttleRelease : Laws.Wf.Statement (.throttleRelease) := Laws.Wf.of_none rfl

theorem Laws.Wf.thermalTrip : Laws.Wf.Statement (.thermalTrip) := Laws.Wf.of_none rfl

theorem Laws.Wf.bootRomReady : Laws.Wf.Statement (.bootRomReady) := Laws.Wf.of_none rfl

theorem Laws.Wf.stageWriteBar2 : ∀ (offset : BitVec 28) (bytes : List Byte), Laws.Wf.Statement (.stageWriteBar2 offset bytes) := by
  intro offset bytes h r hr
  cases hr
  have h' := of_decide_eq_true h
  exact ⟨h'.1, h'.2.1, h'.2.2⟩

theorem Laws.Wf.stageDataWrite : ∀ (path : Path) (data : Reg), Laws.Wf.Statement (.stageDataWrite path data) := fun _ _ => Laws.Wf.of_none rfl

theorem Laws.Wf.bootGo : ∀ (path : Path), Laws.Wf.Statement (.bootGo path) := fun _ => Laws.Wf.of_none rfl

theorem Laws.Wf.verifyDone : ∀ (us : Nat), Laws.Wf.Statement (.verifyDone us) := fun _ => Laws.Wf.of_none rfl

theorem Laws.Wf.initDone : ∀ (us : Nat) (trainUs : Nat) (repairs : Nat) (defaults : List (Nat × Reg)) (fail : Option InitFail), Laws.Wf.Statement (.initDone us trainUs repairs defaults fail) := fun _ _ _ _ _ => Laws.Wf.of_none rfl

theorem Laws.Wf.initStepTimeout : ∀ (step : InitStop) (us : Nat), Laws.Wf.Statement (.initStepTimeout step us) := fun _ _ => Laws.Wf.of_none rfl

theorem Laws.Wf.rbCommit : ∀ (path : Path), Laws.Wf.Statement (.rbCommit path) := fun _ => Laws.Wf.of_none rfl

theorem Laws.Wf.ownerProg : ∀ (path : Path) (confirm : BitVec 16), Laws.Wf.Statement (.ownerProg path confirm) := fun _ _ => Laws.Wf.of_none rfl

theorem Laws.Wf.fuseProgDone : Laws.Wf.Statement (.fuseProgDone) := Laws.Wf.of_none rfl

theorem Laws.Wf.attGo : ∀ (path : Path), Laws.Wf.Statement (.attGo path) := fun _ => Laws.Wf.of_none rfl

theorem Laws.Wf.attReportDone : Laws.Wf.Statement (.attReportDone) := Laws.Wf.of_none rfl

theorem Laws.Wf.attDataRead : ∀ (path : Path), Laws.Wf.Statement (.attDataRead path) := fun _ => Laws.Wf.of_none rfl

theorem Laws.Wf.otpDataRead : ∀ (path : Path), Laws.Wf.Statement (.otpDataRead path) := fun _ => Laws.Wf.of_none rfl

theorem Laws.Wf.registerWrite : ∀ (path : Path) (addr : BitVec 24) (data : BitVec 64) (size : Nat) (be : BitVec 8) (late : Bool), Laws.Wf.Statement (.registerWrite path addr data size be late) := fun _ _ _ _ _ _ => Laws.Wf.of_none rfl

theorem Laws.Wf.bar0BadSizeRead : ∀ (addr : BitVec 24) (size : Nat) (late : Bool), Laws.Wf.Statement (.bar0BadSizeRead addr size late) := fun _ _ _ => Laws.Wf.of_none rfl

theorem Laws.Wf.bar2Read : ∀ (offset : BitVec 28) (len : Nat) (resp : Resp), Laws.Wf.Statement (.bar2Read offset len resp) := by
  intro offset len resp h r hr
  cases hr
  have h' := of_decide_eq_true h
  exact ⟨h'.1, h'.2.1, h'.2.2⟩

theorem Laws.Wf.bar2Write : ∀ (offset : BitVec 28) (bytes : List Byte) (resp : Resp), Laws.Wf.Statement (.bar2Write offset bytes resp) := by
  intro offset bytes resp h r hr
  cases hr
  have h' := of_decide_eq_true h
  exact ⟨h'.1, h'.2.1, h'.2.2⟩

theorem Laws.Wf.bar4Read : ∀ (offset : BitVec 20) (len : Nat), Laws.Wf.Statement (.bar4Read offset len) := by
  intro offset len h r hr
  cases hr
  have h' := of_decide_eq_true h
  exact ⟨h'.1, h'.2.1, h'.2.2⟩

theorem Laws.Wf.bar4Write : ∀ (offset : BitVec 20) (bytes : List Byte), Laws.Wf.Statement (.bar4Write offset bytes) := by
  intro offset bytes h r hr
  cases hr
  have h' := of_decide_eq_true h
  exact ⟨h'.1, h'.2.1, h'.2.2⟩

theorem Laws.Wf.uasynRead : ∀ (frame : List Byte), Laws.Wf.Statement (.uasynRead frame) := fun _ => Laws.Wf.of_none rfl

theorem Laws.Wf.uasynWrite : ∀ (frame : List Byte), Laws.Wf.Statement (.uasynWrite frame) := fun _ => Laws.Wf.of_none rfl

theorem Laws.Wf.uasynFrameAbort : ∀ (bits : Nat), Laws.Wf.Statement (.uasynFrameAbort bits) := fun _ => Laws.Wf.of_none rfl

theorem Laws.Wf.shadowArm : ∀ (path : Path) (page : Fin 202) (view : Bool), Laws.Wf.Statement (.shadowArm path page view) := fun _ _ _ => Laws.Wf.of_none rfl

theorem Laws.Wf.shadowDisarm : ∀ (path : Path) (page : Fin 202) (view : Bool) (atCommit : Bool), Laws.Wf.Statement (.shadowDisarm path page view atCommit) := fun _ _ _ _ => Laws.Wf.of_none rfl

theorem Laws.Wf.shadowCommit : ∀ (page : Fin 202), Laws.Wf.Statement (.shadowCommit page) := fun _ => Laws.Wf.of_none rfl

theorem Laws.Wf.softReset : ∀ (path : Path) (page : Fin 202), Laws.Wf.Statement (.softReset path page) := fun _ _ => Laws.Wf.of_none rfl

theorem Laws.Wf.eventClear : ∀ (path : Path) (page : Fin 202) (bits : BitVec 16) (recurs : BitVec 16), Laws.Wf.Statement (.eventClear path page bits recurs) := fun _ _ _ _ => Laws.Wf.of_none rfl

theorem Laws.Wf.commandFetch : ∀ (fetched : Option (Vector (BitVec 64) 8)), Laws.Wf.Statement (.commandFetch fetched) := fun _ => Laws.Wf.of_none rfl

theorem Laws.Wf.regWriteList : ∀ (entries : List (BitVec 64 × BitVec 64)) (late : Option Nat), Laws.Wf.Statement (.regWriteList entries late) := fun _ _ => Laws.Wf.of_none rfl

theorem Laws.Wf.regReadList : ∀ (addrs : List (BitVec 64)) (late : Option Nat), Laws.Wf.Statement (.regReadList addrs late) := fun _ _ => Laws.Wf.of_none rfl

theorem Laws.Wf.hbmRead : ∀ (late : Option Nat), Laws.Wf.Statement (.hbmRead late) := fun _ => Laws.Wf.of_none rfl

theorem Laws.Wf.hbmWrite : ∀ (bytes : List Byte) (late : Option Nat), Laws.Wf.Statement (.hbmWrite bytes late) := fun _ _ => Laws.Wf.of_none rfl

theorem Laws.Wf.arcSetSei : ∀ (payload : List Byte), Laws.Wf.Statement (.arcSetSei payload) := fun _ => Laws.Wf.of_none rfl

theorem Laws.Wf.heartbeat : Laws.Wf.Statement (.heartbeat) := Laws.Wf.of_none rfl

theorem Laws.Wf.defaultHit : ∀ (master : Fin 31) (addr : BitVec 36), Laws.Wf.Statement (.defaultHit master addr) := fun _ _ => Laws.Wf.of_none rfl

theorem Laws.Wf.fabTimeout : ∀ (master : Fin 31) (id : Fin 64) (addr : BitVec 36), Laws.Wf.Statement (.fabTimeout master id addr) := fun _ _ _ => Laws.Wf.of_none rfl

theorem Laws.Wf.masterViolation : ∀ (master : Fin 31) (kind : ViolKind) (write : Bool) (addr : BitVec 36), Laws.Wf.Statement (.masterViolation master kind write addr) := fun _ _ _ _ => Laws.Wf.of_none rfl

theorem Laws.Wf.drainDone : ∀ (master : Fin 31), Laws.Wf.Statement (.drainDone master) := fun _ => Laws.Wf.of_none rfl

theorem Laws.Wf.thaw : ∀ (path : Path) (master : Fin 32) (reset : Bool), Laws.Wf.Statement (.thaw path master reset) := fun _ _ _ => Laws.Wf.of_none rfl

theorem Laws.Wf.keeperBridgeTimeout : ∀ (frame : List Byte), Laws.Wf.Statement (.keeperBridgeTimeout frame) := fun _ => Laws.Wf.of_none rfl

theorem Laws.Wf.pcieHotReset : Laws.Wf.Statement (.pcieHotReset) := Laws.Wf.of_none rfl

theorem Laws.Wf.pcieD3hot : Laws.Wf.Statement (.pcieD3hot) := Laws.Wf.of_none rfl

theorem Laws.Wf.pcieD0Return : Laws.Wf.Statement (.pcieD0Return) := Laws.Wf.of_none rfl

theorem Laws.Wf.pcieLinkUp : ∀ (rate width : Nat), Laws.Wf.Statement (.pcieLinkUp rate width) := fun _ _ => Laws.Wf.of_none rfl

theorem Laws.Wf.ptpSecond : Laws.Wf.Statement (.ptpSecond) := Laws.Wf.of_none rfl

theorem Laws.Wf.pllLoss : ∀ (root keeper : Bool), Laws.Wf.Statement (.pllLoss root keeper) := fun _ _ => Laws.Wf.of_none rfl

theorem Laws.Wf.offsetSample : ∀ (heard : PtpHeard) (t1 t2 cs : Int) (firstCyc : Nat), Laws.Wf.Statement (.offsetSample heard t1 t2 cs firstCyc) := fun _ _ _ _ _ => Laws.Wf.of_none rfl

theorem Laws.Wf.delaySample : ∀ (heard : PtpHeard) (t1 t2 t3 t4 cs cd linkDelay : Int) (firstCyc : Nat), Laws.Wf.Statement (.delaySample heard t1 t2 t3 t4 cs cd linkDelay firstCyc) := fun _ _ _ _ _ _ _ _ _ => Laws.Wf.of_none rfl

theorem Laws.Wf.pathHoldEnd : Laws.Wf.Statement (.pathHoldEnd) := Laws.Wf.of_none rfl

theorem Laws.Wf.announceReceive : ∀ (heard : PtpHeard) (data : Option Announce), Laws.Wf.Statement (.announceReceive heard data) := fun _ _ => Laws.Wf.of_none rfl

theorem Laws.Wf.sourceLost : ∀ (declared : Bool), Laws.Wf.Statement (.sourceLost declared) := fun _ => Laws.Wf.of_none rfl

theorem Laws.Wf.delayReqSend : ∀ (port : Fin 4), Laws.Wf.Statement (.delayReqSend port) := fun _ => Laws.Wf.of_none rfl

theorem Laws.Wf.timeStep : ∀ (path : Path) (neg : Bool) (ns : BitVec 30), Laws.Wf.Statement (.timeStep path neg ns) := fun _ _ _ => Laws.Wf.of_none rfl

theorem Laws.Wf.ptpModeWrite : ∀ (path : Path) (mode : BitVec 2), Laws.Wf.Statement (.ptpModeWrite path mode) := fun _ _ => Laws.Wf.of_none rfl

theorem Laws.Wf.ptpCfgWrite : ∀ (path : Path) (data : Reg), Laws.Wf.Statement (.ptpCfgWrite path data) := fun _ _ => Laws.Wf.of_none rfl

theorem Laws.Wf.refPeriodEnd : ∀ (periodPs : Option Nat), Laws.Wf.Statement (.refPeriodEnd periodPs) := fun _ => Laws.Wf.of_none rfl

theorem Laws.Wf.refQualified : Laws.Wf.Statement (.refQualified) := Laws.Wf.of_none rfl

theorem Laws.Wf.refEdgeOffset : Laws.Wf.Statement (.refEdgeOffset) := Laws.Wf.of_none rfl

theorem Laws.Wf.laneCalDone : ∀ (port : Fin 4) (trim : Vector (BitVec 24) 4), Laws.Wf.Statement (.laneCalDone port trim) := fun _ _ => Laws.Wf.of_none rfl

theorem Laws.Wf.signalDetect : ∀ (port : Fin 4), Laws.Wf.Statement (.signalDetect port) := fun _ => Laws.Wf.of_none rfl

theorem Laws.Wf.cdrLock : ∀ (port : Fin 4), Laws.Wf.Statement (.cdrLock port) := fun _ => Laws.Wf.of_none rfl

theorem Laws.Wf.adaptConverged : ∀ (port : Fin 4) (lanes : Vector LaneAdapt 4), Laws.Wf.Statement (.adaptConverged port lanes) := fun _ _ => Laws.Wf.of_none rfl

theorem Laws.Wf.alignComplete : ∀ (port : Fin 4), Laws.Wf.Statement (.alignComplete port) := fun _ => Laws.Wf.of_none rfl

theorem Laws.Wf.adaptFail : ∀ (port : Fin 4), Laws.Wf.Statement (.adaptFail port) := fun _ => Laws.Wf.of_none rfl

theorem Laws.Wf.linkDown : ∀ (port : Fin 4) (cdrLost : BitVec 4), Laws.Wf.Statement (.linkDown port cdrLost) := fun _ _ => Laws.Wf.of_none rfl

theorem Laws.Wf.idleFreeze : ∀ (port : Fin 4) (payload lost : Bool), Laws.Wf.Statement (.idleFreeze port payload lost) := fun _ _ _ => Laws.Wf.of_none rfl

theorem Laws.Wf.adaptResume : ∀ (port : Fin 4) (lost : Bool), Laws.Wf.Statement (.adaptResume port lost) := fun _ _ => Laws.Wf.of_none rfl

theorem Laws.Wf.speedChangeRelock : ∀ (port : Fin 4), Laws.Wf.Statement (.speedChangeRelock port) := fun _ => Laws.Wf.of_none rfl

theorem Laws.Wf.deepRestExit : ∀ (port : Fin 4), Laws.Wf.Statement (.deepRestExit port) := fun _ => Laws.Wf.of_none rfl

theorem Laws.Wf.laneTestWrite : ∀ (path : Path) (port : Fin 4) (data : Reg), Laws.Wf.Statement (.laneTestWrite path port data) := fun _ _ _ => Laws.Wf.of_none rfl

theorem Laws.Wf.laneEnableWrite : ∀ (path : Path) (port : Fin 4) (enable : Bool), Laws.Wf.Statement (.laneEnableWrite path port enable) := fun _ _ _ => Laws.Wf.of_none rfl

theorem Laws.Wf.frameReceive : ∀ (port : Fin 4) (frame : RxFrame), Laws.Wf.Statement (.frameReceive port frame) := fun _ _ => Laws.Wf.of_none rfl

theorem Laws.Wf.ingPacket : ∀ (flow : Fin 64) (leg : Leg) (pkt : VideoPacket), Laws.Wf.Statement (.ingPacket flow leg pkt) := fun _ _ _ => Laws.Wf.of_none rfl

theorem Laws.Wf.legQuiet : ∀ (flow : Fin 64) (leg : Leg), Laws.Wf.Statement (.legQuiet flow leg) := fun _ _ => Laws.Wf.of_none rfl

theorem Laws.Wf.lineMergeTimeout : ∀ (slot : Fin 8) (sub : Fin 16) (line : Nat), Laws.Wf.Statement (.lineMergeTimeout slot sub line) := fun _ _ _ => Laws.Wf.of_none rfl

theorem Laws.Wf.stripeWindowClose : ∀ (slot : Fin 8) (sub : Fin 16) (stripe : Nat), Laws.Wf.Statement (.stripeWindowClose slot sub stripe) := fun _ _ _ => Laws.Wf.of_none rfl

theorem Laws.Wf.stripeAnnounce : ∀ (slot : Fin 8) (sub : Fin 16), Laws.Wf.Statement (.stripeAnnounce slot sub) := fun _ _ => Laws.Wf.of_none rfl

theorem Laws.Wf.announcementRelease : Laws.Wf.Statement (.announcementRelease) := Laws.Wf.of_none rfl

theorem Laws.Wf.chinReacquire : ∀ (path : Path) (slot : Fin 8), Laws.Wf.Statement (.chinReacquire path slot) := fun _ _ => Laws.Wf.of_none rfl

theorem Laws.Wf.pafPassDone : ∀ (slot : Fin 8) (sub : Fin 16) (stripe : Nat) (faulted : Bool), Laws.Wf.Statement (.pafPassDone slot sub stripe faulted) := fun _ _ _ _ => Laws.Wf.of_none rfl

theorem Laws.Wf.lutLoad : ∀ (path : Path) (slot : Fin 8) (table : Fin 2), Laws.Wf.Statement (.lutLoad path slot table) := fun _ _ _ => Laws.Wf.of_none rfl

theorem Laws.Wf.lutLoadDone : ∀ (slot : Fin 8) (table : Fin 2) (resp : Resp) (uncorrectable : Bool), Laws.Wf.Statement (.lutLoadDone slot table resp uncorrectable) := fun _ _ _ _ => Laws.Wf.of_none rfl

theorem Laws.Wf.pictureBoundary : ∀ (slot : Fin 8), Laws.Wf.Statement (.pictureBoundary slot) := fun _ => Laws.Wf.of_none rfl

theorem Laws.Wf.rebuildDone : ∀ (slot : Fin 8), Laws.Wf.Statement (.rebuildDone slot) := fun _ => Laws.Wf.of_none rfl

theorem Laws.Wf.poolPeriod : ∀ (group : Fin 8), Laws.Wf.Statement (.poolPeriod group) := fun _ => Laws.Wf.of_none rfl

theorem Laws.Wf.dispatchTask : ∀ (consumer : Consumer), Laws.Wf.Statement (.dispatchTask consumer) := fun _ => Laws.Wf.of_none rfl

theorem Laws.Wf.relevelTick : Laws.Wf.Statement (.relevelTick) := Laws.Wf.of_none rfl

theorem Laws.Wf.landing : ∀ (bay : Fin 16) (used : Nat) (ctus : List CtuCode), Laws.Wf.Statement (.landing bay used ctus) := fun _ _ _ => Laws.Wf.of_none rfl

theorem Laws.Wf.stripeComplete : ∀ (bay : Fin 16) (coded : StripeCoded), Laws.Wf.Statement (.stripeComplete bay coded) := fun _ _ => Laws.Wf.of_none rfl

theorem Laws.Wf.startLimitExpiry : ∀ (task : Fin 4096), Laws.Wf.Statement (.startLimitExpiry task) := fun _ => Laws.Wf.of_none rfl

theorem Laws.Wf.deadlineExpiry : ∀ (bay : Fin 16), Laws.Wf.Statement (.deadlineExpiry bay) := fun _ => Laws.Wf.of_none rfl

theorem Laws.Wf.budgetBreach : ∀ (bay : Fin 16) (ctu : Nat), Laws.Wf.Statement (.budgetBreach bay ctu) := fun _ _ => Laws.Wf.of_none rfl

theorem Laws.Wf.residueMismatch : ∀ (report : CheckReport), Laws.Wf.Statement (.residueMismatch report) := fun _ => Laws.Wf.of_none rfl

theorem Laws.Wf.replayDone : ∀ (bay : Fin 16) (again : Bool) (equal : Bool), Laws.Wf.Statement (.replayDone bay again equal) := fun _ _ _ => Laws.Wf.of_none rfl

theorem Laws.Wf.lockstepFault : ∀ (unit : LockUnit), Laws.Wf.Statement (.lockstepFault unit) := fun _ => Laws.Wf.of_none rfl

theorem Laws.Wf.floorSynthStart : Laws.Wf.Statement (.floorSynthStart) := Laws.Wf.of_none rfl

theorem Laws.Wf.floorSynthDone : ∀ (path : Fin 16), Laws.Wf.Statement (.floorSynthDone path) := fun _ => Laws.Wf.of_none rfl

theorem Laws.Wf.assemblyDone : ∀ (unit : Fin 16) (cycles : Nat), Laws.Wf.Statement (.assemblyDone unit cycles) := fun _ _ => Laws.Wf.of_none rfl

theorem Laws.Wf.bayEnableWrite : ∀ (path : Path) (bay : Fin 16) (enable : Bool), Laws.Wf.Statement (.bayEnableWrite path bay enable) := fun _ _ _ => Laws.Wf.of_none rfl

theorem Laws.Wf.spanRequest : ∀ (path : Path) (target : BitVec 2) (quietCtu : Bool), Laws.Wf.Statement (.spanRequest path target quietCtu) := fun _ _ _ => Laws.Wf.of_none rfl

theorem Laws.Wf.spanBoundary : Laws.Wf.Statement (.spanBoundary) := Laws.Wf.of_none rfl

theorem Laws.Wf.mezzTaskDone : ∀ (engine : Fin 8) (coded : Coded), Laws.Wf.Statement (.mezzTaskDone engine coded) := fun _ _ => Laws.Wf.of_none rfl

theorem Laws.Wf.mzFloorPoint : ∀ (task : Fin 4096), Laws.Wf.Statement (.mzFloorPoint task) := fun _ => Laws.Wf.of_none rfl

theorem Laws.Wf.mzmapLoad : ∀ (path : Path) (slot : Fin 8) (out : Fin 16), Laws.Wf.Statement (.mzmapLoad path slot out) := fun _ _ _ => Laws.Wf.of_none rfl

theorem Laws.Wf.mzmapLoadDone : ∀ (slot : Fin 8) (out : Fin 16) (resp : Resp), Laws.Wf.Statement (.mzmapLoadDone slot out resp) := fun _ _ _ => Laws.Wf.of_none rfl

theorem Laws.Wf.mzeEnableWrite : ∀ (path : Path) (engine : Fin 8) (enable : Bool), Laws.Wf.Statement (.mzeEnableWrite path engine enable) := fun _ _ _ => Laws.Wf.of_none rfl

theorem Laws.Wf.packetTaskDone : ∀ (task : Fin 4096), Laws.Wf.Statement (.packetTaskDone task) := fun _ => Laws.Wf.of_none rfl

theorem Laws.Wf.packetRelease : ∀ (queue : Fin 8192), Laws.Wf.Statement (.packetRelease queue) := fun _ => Laws.Wf.of_none rfl

theorem Laws.Wf.spillReturn : ∀ (queue : Fin 8192), Laws.Wf.Statement (.spillReturn queue) := fun _ => Laws.Wf.of_none rfl

theorem Laws.Wf.frameSelect : ∀ (port : Fin 4), Laws.Wf.Statement (.frameSelect port) := fun _ => Laws.Wf.of_none rfl

theorem Laws.Wf.gateEntryChange : ∀ (port : Fin 4), Laws.Wf.Statement (.gateEntryChange port) := fun _ => Laws.Wf.of_none rfl

theorem Laws.Wf.gateListStart : ∀ (port : Fin 4), Laws.Wf.Statement (.gateListStart port) := fun _ => Laws.Wf.of_none rfl

theorem Laws.Wf.abortPending : ∀ (path : Path) (port : Fin 4) (atStart : Bool), Laws.Wf.Statement (.abortPending path port atStart) := fun _ _ _ => Laws.Wf.of_none rfl

theorem Laws.Wf.shapeWrite : ∀ (path : Path) (addr : BitVec 24) (data : Reg), Laws.Wf.Statement (.shapeWrite path addr data) := fun _ _ _ => Laws.Wf.of_none rfl

theorem Laws.Wf.crcFeed : ∀ (path : Path) (unit : Fin 8) (data : Reg), Laws.Wf.Statement (.crcFeed path unit data) := fun _ _ _ => Laws.Wf.of_none rfl

theorem Laws.Wf.crcReset : ∀ (path : Path) (unit : Fin 8) (data : Reg), Laws.Wf.Statement (.crcReset path unit data) := fun _ _ _ => Laws.Wf.of_none rfl

theorem Laws.Wf.valloRead : ∀ (path : Path) (unit : Fin 8), Laws.Wf.Statement (.valloRead path unit) := fun _ _ => Laws.Wf.of_none rfl

theorem Laws.Wf.scanStart : ∀ (path : Path) (unit : Fin 8), Laws.Wf.Statement (.scanStart path unit) := fun _ _ => Laws.Wf.of_none rfl

theorem Laws.Wf.scanDone : Laws.Wf.Statement (.scanDone) := Laws.Wf.of_none rfl

theorem Laws.Wf.scanError : ∀ (fed : Nat) (resp : Resp), Laws.Wf.Statement (.scanError fed resp) := fun _ _ => Laws.Wf.of_none rfl

theorem Laws.Wf.scanAbort : ∀ (path : Path) (fed : Nat) (lastByte : Bool), Laws.Wf.Statement (.scanAbort path fed lastByte) := fun _ _ _ => Laws.Wf.of_none rfl

theorem Laws.Wf.counterWrap : ∀ (counter : Fin 512) (written : Bool), Laws.Wf.Statement (.counterWrap counter written) := fun _ _ => Laws.Wf.of_none rfl

theorem Laws.Wf.clearAll : ∀ (path : Path), Laws.Wf.Statement (.clearAll path) := fun _ => Laws.Wf.of_none rfl

theorem Laws.Wf.timeSecRead : ∀ (path : Path), Laws.Wf.Statement (.timeSecRead path) := fun _ => Laws.Wf.of_none rfl

theorem Laws.Wf.offsetSecRead : ∀ (path : Path), Laws.Wf.Statement (.offsetSecRead path) := fun _ => Laws.Wf.of_none rfl

theorem Laws.Wf.flogW0Read : ∀ (path : Path), Laws.Wf.Statement (.flogW0Read path) := fun _ => Laws.Wf.of_none rfl

theorem Laws.Wf.galleryReadEcc : ∀ (offset : BitVec 26) (flips : BitVec 72) (reader : Reader), Laws.Wf.Statement (.galleryReadEcc offset flips reader) := fun _ _ _ => Laws.Wf.of_none rfl

theorem Laws.Wf.eccWriteback : ∀ (offset : BitVec 26) (masterWrites : Option GalWrite), Laws.Wf.Statement (.eccWriteback offset masterWrites) := fun _ _ => Laws.Wf.of_none rfl

theorem Laws.Wf.scrubWord : ∀ (offset : BitVec 26) (flips : BitVec 72), Laws.Wf.Statement (.scrubWord offset flips) := fun _ _ => Laws.Wf.of_none rfl

theorem Laws.Wf.hbmReadEcc : ∀ (addr : BitVec 35) (flips : BitVec 266) (onDie : Bool) (onDieBad : Bool) (reader : Reader), Laws.Wf.Statement (.hbmReadEcc addr flips onDie onDieBad reader) := fun _ _ _ _ _ => Laws.Wf.of_none rfl

theorem Laws.Wf.hbmRereadDone : ∀ (flips : BitVec 266) (report : Reread) (reader : Reader), Laws.Wf.Statement (.hbmRereadDone flips report reader) := fun _ _ _ => Laws.Wf.of_none rfl

theorem Laws.Wf.refreshIntervalEnd : ∀ (pc : Fin 64), Laws.Wf.Statement (.refreshIntervalEnd pc) := fun _ => Laws.Wf.of_none rfl

theorem Laws.Wf.refreshDone : ∀ (pc : Fin 64), Laws.Wf.Statement (.refreshDone pc) := fun _ => Laws.Wf.of_none rfl

theorem Laws.Wf.hbmTempCrossing : ∀ (stack : Fin 2) (above : Bool), Laws.Wf.Statement (.hbmTempCrossing stack above) := fun _ _ => Laws.Wf.of_none rfl

theorem Laws.Wf.selfRefreshEntry : ∀ (channel : Fin 32), Laws.Wf.Statement (.selfRefreshEntry channel) := fun _ => Laws.Wf.of_none rfl

theorem Laws.Wf.selfRefreshExit : ∀ (channel : Fin 32) (accepted : Nat), Laws.Wf.Statement (.selfRefreshExit channel accepted) := fun _ _ => Laws.Wf.of_none rfl

theorem Laws.Wf.writeBatch : ∀ (pc : Fin 64), Laws.Wf.Statement (.writeBatch pc) := fun _ => Laws.Wf.of_none rfl

theorem Laws.Wf.mergeReadDone : ∀ (pc : Fin 64) (read : MergeRead), Laws.Wf.Statement (.mergeReadDone pc read) := fun _ _ => Laws.Wf.of_none rfl

theorem Laws.Wf.micAbsent : ∀ (mic : Fin 16), Laws.Wf.Statement (.micAbsent mic) := fun _ => Laws.Wf.of_none rfl

theorem Laws.Wf.micResume : ∀ (mic : Fin 16), Laws.Wf.Statement (.micResume mic) := fun _ => Laws.Wf.of_none rfl

theorem Laws.Wf.tdmFrameStart : ∀ (port : Fin 4) (bclks : Nat) (slots : List Bool), Laws.Wf.Statement (.tdmFrameStart port bclks slots) := fun _ _ _ => Laws.Wf.of_none rfl

theorem Laws.Wf.portStall : ∀ (port : Fin 4), Laws.Wf.Statement (.portStall port) := fun _ => Laws.Wf.of_none rfl

theorem Laws.Wf.wclkPeriodEnd : ∀ (periodPs : Option Nat), Laws.Wf.Statement (.wclkPeriodEnd periodPs) := fun _ => Laws.Wf.of_none rfl

theorem Laws.Wf.tdmEnableWrite : ∀ (path : Path) (port : Fin 4) (enable : Bool), Laws.Wf.Statement (.tdmEnableWrite path port enable) := fun _ _ _ => Laws.Wf.of_none rfl

theorem Laws.Wf.watchdogExpiry : ∀ (core : Fin 4) (signal : Bool), Laws.Wf.Statement (.watchdogExpiry core signal) := fun _ _ => Laws.Wf.of_none rfl

theorem Laws.Wf.warmReset : ∀ (path : Path) (confirm : BitVec 16), Laws.Wf.Statement (.warmReset path confirm) := fun _ _ => Laws.Wf.of_none rfl

theorem Laws.Wf.coldReset : ∀ (path : Path) (confirm : BitVec 16), Laws.Wf.Statement (.coldReset path confirm) := fun _ _ => Laws.Wf.of_none rfl

theorem Laws.Wf.coldResetResume : Laws.Wf.Statement (.coldResetResume) := Laws.Wf.of_none rfl

theorem Laws.Wf.vinMainLoss : Laws.Wf.Statement (.vinMainLoss) := Laws.Wf.of_none rfl

theorem Laws.Wf.watchdogProgress : ∀ (core : Fin 4), Laws.Wf.Statement (.watchdogProgress core) := fun _ => Laws.Wf.of_none rfl

theorem Laws.Wf.faultRecentExpiry : ∀ (engine : PooledEngine), Laws.Wf.Statement (.faultRecentExpiry engine) := fun _ => Laws.Wf.of_none rfl

theorem Laws.Wf.ppsOutFall : Laws.Wf.Statement (.ppsOutFall) := Laws.Wf.of_none rfl

theorem Laws.Wf.eyeMeasurement : ∀ (lane : Fin 24) (height width : BitVec 8), Laws.Wf.Statement (.eyeMeasurement lane height width) := fun _ _ _ => Laws.Wf.of_none rfl

end Sys2Proof
end

