-- ==== Sys2Proof/Tests/Slice0.lean ====
section
/-!
SUPPORT. Tests/Slice0.lean: small states, a witness for the hypotheses of each statement, one ill-formed command for each check of
WellFormed, and a few values the spec prints.
-/
namespace Sys2Proof.Tests

open Sys2Proof Sys2Proof.Machine

-- One theorem after another: elaborated side by side, these kernel evaluations would open a thread each.
set_option Elab.async false

/-! ### Small states -/

/-- Fields set one after another. -/
def setAll (l : List (Fld × Nat)) (s : State) : State := l.foldl (fun t e => t.setFld e.1 e.2) s

/-- In service, every path open: power, link, and the masks of the PCIe port and the control cores all ones. -/
def up : State :=
  setAll (((List.range 5).map (fun k => (pageMask 28 k, 2 ^ 48 - 1))) ++ ((List.range 5).map (fun k => (pageMask 29 k, 2 ^ 48 - 1)))
      ++ [(FAB.M_HBM_READ 28, 65535), (FAB.M_HBM_WRITE 28, 65535)])
    { State.reset with
      ready := .ready, valid := true, cyc := 4000000000, ctr := 10737418240 * 4000000000
      pins := { resetN := true, perstN := true }
      pwr := { aux := true, main := true, core := true }
      clk := { keeperPll := true, rootPll := true }
      hif := { linkUp := true, lanesOn := true } }

/-- Before an image: power, link, READY WAIT_IMAGE. -/
def waiting : State := { up with ready := .waitImage, regs := [] }

/-- In service, with every port ACTIVE. -/
def linked : State := setAll ((PTP.CFG_PORT_MASK, 15) :: (List.range 4).map (fun n => (LANE.STAT_STATE n, 6))) up

def dark : State := State.reset
def mainOutNow : State := { up with pwr := { up.pwr with mainOut := true } }
def mainFirst : State := { State.reset with pwr := { main := true } }
def auxOnly : State := { State.reset with pwr := { aux := true } }
def auxLate : State := { State.reset with pwr := { aux := true }, cyc := msCyc 200 + 1 }
def railsIn : State := { State.reset with pwr := { aux := true, main := true } }
def coldHold : State := { up with ready := .cold, pwr := { aux := true, main := true, coldAt := some 0 }, cyc := msCyc 10 }
def ppsHigh : State := { up with pins := { up.pins with ppsOut := true } }
def hot : State := { up with pwr := { up.pwr with hotRun := 100 } }
def cool : State := setAll [(KPR.THERM_STAT_THROTTLE, 1)] { up with pwr := { up.pwr with coolRun := 1000000 } }
def tripping : State := { up with pwr := { up.pwr with tripRun := 2 } }
def railBad : State := { up with pwr := { up.pwr with badMain := 1 } }
def warmDog : State := setAll [(KPR.WDOG_CFG_WARM, 1)] up

def coldUp : State := { up with ready := .cold, regs := [] }
def quarantined : State := { waiting with ready := .quarantine }
def lengthSet : State := setAll [(BOOT.IMG_LEN_LEN, 4096)] waiting
def verifying : State := { waiting with ready := .verify, boot := { latched := 256 } }
def verifyingAgain : State := { verifying with boot := { latched := 256, fromQuarantine := true } }
def initing : State := { waiting with ready := .init, boot := { latched := 256 } }
def withImage : State := { up with boot := { image := some { fw := 1, level := 2, digest := [], sections := [] } } }
def blowing : State := { up with sec := { fuse := some ⟨[640], 0⟩ } }
def attesting : State := { up with sec := { job := some ⟨[], 1, 2, List.replicate 32 0, 0⟩ } }
def attested : State := setAll [(SEC.ATT_STAT_VALID, 1)] { up with sec := { report := List.replicate 640 7 } }
def armed : State := setAll [(PG_SHADOW_BUSY 0x201000, 1), (PG_SHADOW_BUSY 0x202000, 1), (PG_SHADOW_BUSY 0xA00000, 1)]
  { up with servo := { stepAt := some up.cyc } }
def eventful : State := setAll [(PG_EVENT_EVENTS 0x1000, 0xFFFF), (PG_EVENT_EVENTS 0x2000, 5)] up
/-- A Uasyn request with its CRC. -/
def uasynFrameOf (body : List Byte) : List Byte := body ++ [BitVec.ofNat 8 (crc8 body)]
def rdReq : List Byte := uasynFrameOf [0x15, 0x20, 0x10, 0x40]
def wrReq : List Byte := uasynFrameOf [0x25, 0x20, 0x10, 0x40, 0, 0, 0, 0, 0, 0]
def wroteOnce : State := { up with replies := { lastWrite := some (5, 0x201040, 0, [1, 2, 3]) } }

/-- Ring 0 with 16 entries each way, one command waiting. -/
def ringed : State := setAll [(ringEntries false 0, 16), (ringEntries true 0, 16), (ringPi false 0, 1), (ringFld false 0 0 48, 1), (ringFld true 0 0 48, 2)] up
/-- A ring's command: opcode, length, address, operands. -/
def ringCmd (op len addr a b : Nat) : RingCmd :=
  ⟨0, 0, [BitVec.ofNat 64 (5 * 2 ^ 32 + op), BitVec.ofNat 64 len, BitVec.ofNat 64 addr, BitVec.ofNat 64 a, BitVec.ofNat 64 b, 0, 0, 0], .ok⟩
def running (c : RingCmd) : State := { ringed with hif := { ringed.hif with cur := some c } }
def beating : State := { ringed with hif := { ringed.hif with hbNext := some 0 } }
def beatingD3 : State := { beating with hif := { beating.hif with d3hot := true } }
def frozenBay : State := setAll [(KPR.FRZ_STAT_FROZEN, 1)] up
def drainingBay : State := { up with masters := [(0, { draining := true })] }
def releasingBay : State := setAll [(KPR.FRZ_STAT_FROZEN, 1)] { up with masters := [(0, { draining := true, byReset := true, release := true })] }
def linkDownState : State := { up with hif := { up.hif with linkUp := false } }
def ctrStart : State := setAll [(PTP.INCR_INCR, 10737418240)] { up with ctr := 0 }
def servoState : State := setAll [(LANE.STAT_STATE 1, 6), (PTP.MODE_MODE, 1), (PTP.STAT_ACTIVE_PORT, 1), (PTP.JUMP_THRESH_NS, 1000), (PTP.CFG_PORT_MASK, 15)]
  { up with servo := { delay := some 0 } }
def holding : State := { servoState with servo := { holdEnd := some 0, holdSamples := [3, 1, 2] } }
def refMode : State := setAll [(PTP.MODE_MODE, 2), (REF.CFG_ENABLE, 1), (REF.STAT_STATE, 2)] up
def refSeeking : State := setAll [(REF.CFG_ENABLE, 1), (REF.STAT_STATE, 1)] { up with refMon := { good := 2000000000000 } }
def refBad : State := setAll [(REF.CFG_ENABLE, 1), (REF.STAT_STATE, 2)] { up with refMon := { bad := 2 } }
/-- Port 0 in a state of its link state machine. -/
def laneIn (st : Nat) : State := setAll [(LANE.STAT_STATE 0, st)] up
/-- The same, just entered. -/
def laneJust (st : Nat) : State := { laneIn st with lanes := [(0, { enteredAt := up.cyc })] }
def laneResumes : State := { laneIn 6 with lanes := [(0, { idleFrozen := true, resumeAt := some 0 })] }
def laneLoops : State := setAll [(LANE.CFG_LOOP 0, 1)] (laneIn 6)
def laneRelock : State := { laneIn 0 with lanes := [(0, { relock := true })] }
def laneIdle : State := { laneIn 6 with lanes := [(0, { idleFrozen := true })] }
def lanePowered : State := setAll [(SDS.STAT_POWERED 0, 1), (SDS.STAT_CDR_LOCK 0, 1)] up
def macUp : State := setAll [(MAC.CFG_MAX_FRAME 0, 9600), (PTP.CFG_PORT_MASK, 1), (PTP.CFG_PROFILE, 1), (MAC.ADDR_ADDR 0, 0x112233445566)] (laneIn 6)
def frameOf (size : Nat) (ok : Bool) : RxFrame :=
  { fecCorr := 0, fecUncorr := 0, fecSym := 0, size := size, fcsOk := ok, tags := 0, vid := 0, dstMac := 0x112233445566, srcMac := 1, srcIp := 0,
    dstIp := 0, udp := 0, kind := .ptp ⟨true, 0⟩ false }
def flowOn : State := setAll [(FLOW.LEGA_CFG_ENABLE 0, 1), (FLOW.CFG_KIND 0, 1), (LANE.STAT_STATE 0, 6)] up
def flowSlotRuns : State := { (setAll [(CHIN.STAT_STATE 0, 2)] flowOn) with slots := [(0, { lost := true })] }
def openLine : OpenLine := { firstAt := 0, groups := [(0, [1])] }
def openPic : Picture := { grid := 5, number := 1, rtp := 0, buffer := 0, synth := false, ctu32 := false, lines := [(3, openLine)] }
def openLineState : State := { (setAll [(CHIN.STAT_STATE 0, 2)] up) with subs := [(0, { acquired := true, pics := [openPic] })] }
def vpkt (seq line : Nat) : VideoPacket := ⟨96, 0, seq, [⟨line, 0, false, List.replicate 10 7⟩], 0, 0⟩
def receiving : State := { (setAll [(CHIN.STAT_STATE 0, 2)] flowOn) with
  cyc := 500, subs := [(0, { acquired := true, pics := [{ openPic with seqs := [(5, { kept := true, legA := true })], closed := [9] }] })] }
/-- A slot that expects a picture of which no packet has come. -/
def expecting : State := { (setAll [(CHIN.STAT_STATE 0, 2)] up) with subs := [(0, { acquired := true, expected := some 5 })] }

/-- An announcement of stripe 0 of the picture at grid point 5. -/
def ann0 : Ann :=
  { slot := 0, sub := 0, picture := 1, stripe := 0, grid := 5, tS := 0, buffer := 0, prevBuf := none, ctu32 := false,
    repeat_ := false, concealed := false, stalled := false, lines := 64, madeAt := 0 }
/-- A task of output `out` in a state. -/
def taskOf (kind : TaskKind) (st : TaskState) (out : Nat) : Task :=
  { kind := kind, st := st, out := out, stripe := 0, ann := ann0, dead := 4001000000, launch := 4001000400, launchAt := 10737418240 * 4000002000 }
def withTask (x : Task) (s : State) : State := { s with tasks := [(3, x)] }
/-- A running slot of one stripe format with its contribution output. -/
def coding : State := setAll [(CHIN.STAT_STATE 0, 2), (STC.OUT_RUN 0 0, 1), (ARCC.BAYS_AVAILABLE, 65535), (PTP.INCR_INCR, 10737418240)] up
def donePic : Picture := { grid := 5, number := 1, rtp := 0, buffer := 0, synth := true, ctu32 := false, shut := [0] }
def announcing : State := { coding with subs := [(0, { acquired := true, pics := [donePic] })] }
def announcingHeld : State := { announcing with held := [ann0] }
def announcingFull : State := { announcing with tasks := (List.range 4096).map (fun i => (i, taskOf .mezz .waiting 136)) }
def lostSlot : State := { coding with slots := [(0, { lost := true })] }
def passing (bad : Bool) (limit : Nat) : State :=
  { coding with passes := [{ ann := ann0, start := some 0, limit := limit, bad := bad }], tags := [(0, { out := 0, grid := 5, stripes := 1 })] }
def lutBusy : State := setAll [(PAF.LUT_STAT_BUSY 0 0, 1)] up
def lutBusyRuns : State := setAll [(PAF.LUT_STAT_BUSY 0 0, 1)] coding
def mapBusy : State := setAll [(STC.MZMAP_STAT_BUSY 0 0, 1), (STC.MZOUT_COLS 0 0, 1), (STC.MZOUT_ROWS 0 0, 1)] up
def mapBusyRuns : State := setAll [(STC.MZOUT_RUN 0 0, 1)] mapBusy
def spanPending : State := { (setAll [(DSP.SPAN_STAT_PENDING, 1)] coding) with span := { pending := true, boundary := some 0, target := 1 } }
def atBoundary : State := { coding with slots := [(0, { boundary := some 5 })] }
def atBoundaryStop : State := { coding with slots := [(0, { boundary := some 5, stopping := true })] }
def rebuilding : State := setAll [(STC.TABLES_BUSY 0, 1)] up
/-- A pool of one member at the grid point 5 of its rate. -/
def pooled : State :=
  { (setAll [(DSP.POOL_EN 0, 1), (DSP.POOL_RATE_KBPS 0, 1000000), (STC.OUT_POOLED 0 0, 1)] coding) with ctr := gridAt (State.rate coding 0) 5 }
def readyEncode : State := withTask (taskOf .encode (.ready 5 0 0) 0) coding
/-- At a microsecond of the counter. -/
def ticking : State := { readyEncode with ctr := ns 1000 * 42000 }
def lateEncode : State := withTask { taskOf .encode (.ready 5 0 0) 0 with dead := 0 } coding
def bayRunning (r : BayRun) (x : Task) : State := { (withTask x coding) with bays := [(0, r)] }
def bayFirst : State := bayRunning { task := 3, start := 0 } (taskOf .encode (.running 0 0) 0)
def bayLate : State := bayRunning { task := 3, start := 0, landings := 1 } { taskOf .encode (.running 0 0) 0 with dead := 0 }
def bayReplay : State := bayRunning { task := 3, start := 0, landings := 1, replay := some (4, 2), replayAt := 4000000000 } (taskOf .encode (.running 0 0) 0)
def flooring : State := { (withTask { taskOf .assemble .waiting 0 with floored := true } coding) with floorQ := [3] }
def floorAtWork : State := { flooring with floorQ := [], floors := [(8, { task := 3, start := 0 })] }
def engineRuns : State := withTask (taskOf .mezz (.running 0 0) 136) coding
def assembling : State := withTask (taskOf .assemble (.running 0 0) 0) coding
def faulted : State := { coding with bayLog := [(0, { faults := [0, 4000000000] })], mzeLog := [(0, { faults := [0] })] }

def codedPic : CodedPic := { grid := 5, number := 1, ctu32 := false, index := 0, alive := 0 }
def assemblingPic : State := { assembling with outs := [(0, { pics := [codedPic] })] }
def packing : State := withTask (taskOf .packet (.running 0 0) 0) coding
def packingPic : State := { packing with outs := [(0, { pics := [codedPic] })], tasks := packing.tasks.map (fun e => (e.1, { e.2 with code := [1, 2, 3] })) }
def packingBehind : State := { packing with tasks := packing.tasks ++ [(4, { taskOf .encode .waiting 0 with launchAt := 0 })] }
def bandLate : State :=
  setAll [(STC.MZOUT_COLS 0 0, 1), (STC.MZOUT_ROWS 0 0, 1), (STC.MZOUT_RUN 0 0, 1), (STC.MZOUT_BPP_X16 0 0, 16)]
    (withTask { taskOf .mezz .waiting 136 with launch := 0 } coding)
def pkt (a : CopyState) (spilled : Bool) : Pkt := { launch := some 0, data := [1, 2, 3], a := a, b := a, spilled := spilled }
/-- Queue 0 served by service 0 on port 0, class 0. -/
def queued (l : List Pkt) : State :=
  { (setAll [(LANE.STAT_STATE 0, 6), (SHP.SVC_CFG_A_EN 0 0, 1), (SHP.SVC_SHAPE_RATE_KBPS 0 0, 1000), (QUE.SHAPE_RATE_KBPS 0 0, 1000),
      (SHP.CLS_RATE_KBPS 0 0, 1000), (PTP.INCR_INCR, 10737418240)] up) with queues := [(0, l)] }
def queuedHeld : State := queued [pkt .held false, pkt .held true]
def queuedFree : State := queued [pkt .released false]
def gateList : GateList := { entries := [(255, 500000), (3, 500000)], cycle := 1000000, base := 0, start := 0 }
def gated : State := { up with ports := [(0, { oper := some gateList, next := some { gateList with entries := [(7, 1000000)] } })] }
def chkReady : State := setAll [(CHK.UCTL_FEED_BYTES 0, 6), (CHK.UCTL_POLY 0, 1), (CHK.SCAN_LEN_LEN, 64)] up
def scanning (addr len : Nat) : State := { chkReady with scan := some { unit := 0, addr := addr, len := len } }
def topCounter (chain ev : Nat) : State :=
  setAll [(PMC.CNT_COUNT 0 0, 2 ^ 48 - 1), (PMC.EVSEL_EN 0 0, 1), (PMC.EVSEL_OVF_EV 0 0, ev), (PMC.EVSEL_EN 1 0, chain), (PMC.EVSEL_CHAIN 1 0, chain),
    (PMC.CNT_COUNT 1 0, 2 ^ 48 - 1)] up
def topOdd : State := setAll [(PMC.CNT_COUNT 63 7, 2 ^ 48 - 1), (PMC.EVSEL_EN 63 7, 1)] up
def logged : State := { up with kpr := { flog := [⟨0, 0x10, 4, 4, 1, 2, 3, 4⟩], seq := 1 } }
def offsetShown : State := { up with regs := Store.set resetValue (Store.set resetValue up.regs 0x200090 7) 0x200098 9 }
def galData : State := setAll [(GAL.SCRUB_EN, 1)] { up with gallery := [(8, 0x55), (9, 1), (67108863, 3)], wbacks := [(1, [1, 2, 3, 4, 5, 6, 7, 8])] }
def hbmData : State := { up with hbm := [(32, 1), (63, 2)], rereads := [1, 5] }
def pcIn (p : Pc) : State := { up with pcs := [(0, p), (1, { p with wq := [] })] }
def fullEntry : WqEntry := { beat := 0, mask := fullMask, data := List.replicate 32 7 }
def shortEntry : WqEntry := { beat := 2 ^ 12 * 64, mask := 5, data := List.replicate 32 9 }
def owing : State := pcIn { debt := 8, since := 0, wq := [fullEntry, shortEntry] }
def lazyWrites : State := pcIn { debt := 3, since := 0, wq := [fullEntry, shortEntry] }
def poisonedMerge : State := { lazyWrites with poison := [(2 ^ 12 * 64, true)] }
def badWord : State := { galData with badWords := [(1, true)] }
def lazyPc : State := pcIn { debt := 3, since := 4000000000 - 800 }
def asleep : State := pcIn { sr := 2 }
def warming : State := setAll [(KPR.THERM_STAT_HBM0_C, 86)] lazyPc
def cooling : State := setAll [(HBM.REFRESH_HOT 0, 1)] lazyPc
def idleChannel : State := setAll [(HBM.SR_CFG_EN 0, 1), (HBM.SR_CFG_IDLE_US 0, 100)] up
def portRuns (clock : Nat) (fresh : Bool) : State :=
  { (setAll [(TDM.CFG_CLOCK 0, clock), (TDM.STAT_STATE 0, 1), (TDM.CFG_SLOTS 0, 1), (TDM.MASK_TX_MASK 0, 3), (TDM.MASK_RX_MASK 0, 1)] up) with
    audio := { ports := [(0, some { startAt := 0, fresh := fresh, input := List.replicate 32 [1, 2], output := List.replicate 32 [3, 4] })] } }
/-- The same as a MASTER port at a sample instant, and STALLED. -/
def masterRuns : State := setAll [(PTP.INCR_INCR, 10737418240)] { portRuns 0 false with ctr := sampleInstant 48000 1000 }
def stalledPort : State := setAll [(TDM.STAT_STATE 0, 2)] (portRuns 1 false)
def wordClock (bad good : Nat) : State := setAll [(AUDC.WCLK_CFG_ENABLE, 1), (AUDC.WCLK_CFG_RATE, 1), (AUDC.WCLK_STAT_STATE, 1)]
  { up with audio := { wclk := { bad := bad, good := good } } }
def portStopped : State := setAll [(PG_CTRL_ENABLE 0xA01000, 0)] up

def keptPic : Picture := { openPic with seqs := [(5, { kept := true, legA := true })], closed := [9] }
def initFail : InitFail := { step := 2, stack := 0, channel := 3 }
def attJob : AttJob := ⟨[], 1, 2, List.replicate 32 0, 0⟩
def fuseJob : FuseJob := ⟨[640], 0⟩
def readReq : UasynReq := ⟨0x15, 0x201040, 0⟩
def writeReq : UasynReq := ⟨0x25, 0x201040, 0⟩
def cmdWrite : RingCmd := ringCmd 1 16 0x10000 0 0
def cmdRead : RingCmd := ringCmd 2 8 0x10000 0 0
def cmdToHost : RingCmd := ringCmd 3 64 0x10000 0x1000 0
def cmdFromHost : RingCmd := ringCmd 4 64 0x10000 0x1000 0
def cmdHost : RingCmd := ringCmd 0x20 8 0x10000 0x10 0
def readyTask : Task := taskOf .encode (.ready 5 0 0) 0
def runningTask : Task := taskOf .encode (.running 0 0) 0
def lateTask : Task := { readyTask with dead := 0 }
def lateRunning : Task := { runningTask with dead := 0 }
def floorTask : Task := { taskOf .assemble .waiting 0 with floored := true }
def assembleTask : Task := taskOf .assemble (.running 0 0) 0
def mezzTask : Task := taskOf .mezz (.running 0 0) 136
def packetTask : Task := taskOf .packet (.running 0 0) 0
def bandTask : Task := { taskOf .mezz .waiting 136 with launch := 0 }
def firstRun : BayRun := { task := 3, start := 0 }
def oneRun : BayRun := { task := 3, start := 0, landings := 1 }
def replayRun : BayRun := { task := 3, start := 0, landings := 1, replay := some (4, 2), replayAt := 4000000000 }
def bayOne : State := bayRunning oneRun runningTask
/-- One CTU of the stripe is still to be coded; what the run holds so far is the stripe's header, whose bytes are free. -/
def bayPic : State := { (withTask runningTask coding) with outs := [(0, { pics := [codedPic] })] }
def lastRun : BayRun :=
  { task := 3, start := 0, landings := 8, treads := List.replicate 8 7, ctus := 119, ended := true
    bits := State.stripeHeader bayPic runningTask, cap := State.stripeBits bayPic 0 runningTask.stripe codedPic [1, 1] }
def bayLast : State := { bayPic with bays := [(0, lastRun)] }
/-- The third fault of bay 0 within 10 s would come now. -/
def bayThird : State := { bayReplay with bayLog := [(0, { faults := [3999999999, 3999999998] })] }
def bayDone : State := { coding with bayLog := [(0, { doneAt := some 4000000000 })] }
def floorRun : FloorRun := { task := 3, start := 0 }
def openPass : Pass := { ann := ann0, start := some 0, limit := 0, bad := false }
def codedBytes : Coded := ⟨5, []⟩
/-- A stripe's last CTU, of 16 bits, and the slice it makes. -/
def codedSlice : StripeCoded := ⟨⟨5, [1, 1]⟩, [plainCtu 64 64 0 16]⟩
def nextList : GateList := { gateList with entries := [(7, 1000000)] }
def pendingGate : State := setAll [(GATE.STAT_PENDING 0, 1)] gated
def scanRun : ScanRun := { unit := 0, addr := 0, len := 64 }
def tdmRun : TdmRun := { startAt := 0, fresh := false, input := List.replicate 32 [1, 2], output := List.replicate 32 [3, 4] }
def readyCopy : Candidate := ⟨0, 0, pkt .released false⟩

/-! ### Witnesses: a concrete state and operands that meet the hypotheses of each clause of a statement together -/

theorem witness_EmptyQueuePassesOneCycle :
    (State.reset.pending = [])
    ∧ (up.pending = []) := by
  decide +kernel

theorem witness_AttentionGenerationCountsPendingSetChanges :
    ((match exec .vinAuxRise dark with | .next _ => true | _ => false) = true)
    ∧ ((15 < 16) ∧ (State.inService up = true ∨ baseOfIndex 201 ∈ [Pg.kpr, Pg.boot, Pg.sec]))
    ∧ ((15 < 16) ∧ (baseOfIndex 1 ∈ [Pg.kpr, Pg.boot, Pg.sec])) := by
  decide +kernel

theorem witness_RailsAndResetPinTakeEffect :
    ((dark.pwr.aux = false))
    ∧ ((dark.pwr.main = false ∨ dark.pwr.mainOut = true))
    ∧ ((mainOutNow.pwr.main = false ∨ mainOutNow.pwr.mainOut = true))
    ∧ ((dark.pins.resetN = false))
    ∧ ((dark.pins.resetN = false ∨ dark.pwr.core = false))
    ∧ ((up.pins.resetN = true) ∧ (up.pwr.core = true)) := by
  decide +kernel

theorem witness_ColdResetRemovesPowerAndReturns :
    ((Store.wf resetValue up.regs = true) ∧ (up.pwr.aux = true) ∧ (up.pins.resetN = true) ∧ (1000 ≤ 1000))
    ∧ ((Store.wf resetValue up.regs = true) ∧ (up.pwr.aux = true) ∧ (99 < 100))
    ∧ ((Store.wf resetValue up.regs = true) ∧ (Safety.Open Path.pcie 4160 up) ∧ (up.pwr.coldAt = none))
    ∧ ((Store.wf resetValue coldHold.regs = true) ∧ (coldHold.pwr.coldAt = some 0) ∧ (coldHold.pwr.aux = true) ∧
      (coldHold.pins.resetN = true) ∧ (coldHold.pwr.coldHeld = false) ∧ (0 + msCyc 10 ≤ coldHold.cyc)) := by
  refine ⟨?_, ?_, ?_, ?_⟩ <;> (try simp only [Safety.Open]) <;> decide +kernel

theorem witness_WarmResetKeepsTheKeeper :
    ((Safety.Open Path.pcie 4160 up) ∧ (Store.wf resetValue up.regs = true) ∧ (State.fld up KPR.THERM_STAT_TRIPPED = 0) ∧
      (State.fld up KPR.THERM_STAT_RAIL_FAULT = 0) ∧ (up.pwr.coldAt = none) ∧ (up.pwr.core = true)) := by
  simp only [Safety.Open]
  decide +kernel

theorem witness_PinEventsAndKeeperLoss :
    ((ppsHigh.pins.ppsOut = true) ∧ (ppsHigh.pins.ppsAt + msCyc 1 ≤ ppsHigh.cyc)) := by
  decide +kernel

theorem witness_ThermalSampleShowsTheHottestSensor :
    ((up.pwr.aux = true)) := by
  decide +kernel

theorem witness_ThrottleAndThermalTrip :
    ((hot.pwr.aux = true) ∧ (State.fld hot KPR.THERM_STAT_THROTTLE = 0) ∧ (100 ≤ hot.pwr.hotRun ∨ 100 ≤ hot.pwr.hotStack) ∧
      (hot.pwr.tripRun < 2) ∧ (hot.pwr.tripStack < 2))
    ∧ ((cool.pwr.aux = true) ∧ (State.fld cool KPR.THERM_STAT_THROTTLE = 1) ∧ (1000000 ≤ cool.pwr.coolRun))
    ∧ ((tripping.pwr.aux = true) ∧ (2 ≤ tripping.pwr.tripRun ∨ 2 ≤ tripping.pwr.tripStack) ∧
      (State.fld tripping KPR.THERM_STAT_TRIPPED = 0)) := by
  decide +kernel

theorem witness_RailComparisons :
    ((up.pwr.aux = true) ∧ (up.pwr.core = true) ∧ (up.pins.resetN = true) ∧ (1746 < 4096 ∧ 0 < 4096 ∧ 927 < 4096 ∧ 4095 < 4096) ∧
      (∀ x ∈ up.pwr.rails, x.mainMv < 4096 ∧ x.mainDa < 4096 ∧ x.auxMv < 4096 ∧ x.auxCa < 4096) ∧
      (1746 ≤ 1746 ∧ 1746 ≤ 1854 ∧ 873 ≤ 927 ∧ 927 ≤ 927))
    ∧ ((railBad.pwr.aux = true) ∧ (railBad.pwr.core = true) ∧ (railBad.pins.resetN = true) ∧
      (1745 < 4096 ∧ 0 < 4096 ∧ 873 < 4096 ∧ 4095 < 4096) ∧
      (∀ x ∈ railBad.pwr.rails, x.mainMv < 4096 ∧ x.mainDa < 4096 ∧ x.auxMv < 4096 ∧ x.auxCa < 4096) ∧ (1745 < 1746 ∨ 1854 < 1745) ∧
      (1 ≤ railBad.pwr.badMain)) := by
  decide +kernel

theorem witness_WatchdogSignalsAndExpiries :
    ((State.inService up = true) ∧ (State.coreRuns up 0 = true))
    ∧ ((State.inService up = true) ∧ (State.coreRuns up 0 = true) ∧
      (Store.at up.kpr.progress 0 0 + msCyc (State.fld up KPR.WDOG_CFG_TIMEOUT_MS) ≤ up.cyc) ∧ (State.fld up KPR.WDOG_CFG_WARM = 0))
    ∧ ((State.inService warmDog = true) ∧ (State.coreRuns warmDog 0 = true) ∧
      (Store.at warmDog.kpr.progress 0 0 + msCyc (State.fld warmDog KPR.WDOG_CFG_TIMEOUT_MS) ≤ warmDog.cyc) ∧
      (State.fld warmDog KPR.WDOG_CFG_WARM = 1)) := by
  decide +kernel

theorem witness_StagingStoresAndGoVerifies :
    ((coldUp.pwr.core = true) ∧ (coldUp.ready = Ready.cold) ∧ (coldUp.pwr.coldAt = none))
    ∧ ((waiting.badWords = []) ∧ (waiting.ready = Ready.waitImage ∨ waiting.ready = Ready.quarantine) ∧
      (State.reaches waiting Path.pcie = true) ∧ (waiting.pwr.core = true) ∧
      (State.fld waiting BOOT.STAT_SRC = 0 ∨ State.fld waiting BOOT.STAT_SRC = 1) ∧ (0 < Config.stagingBytes))
    ∧ ((waiting.badWords = []) ∧ (waiting.ready = Ready.waitImage ∨ waiting.ready = Ready.quarantine) ∧
      (Safety.Open Path.pcie 8288 waiting) ∧
      (State.fld waiting BOOT.STAT_SRC = 0 ∨ State.fld waiting BOOT.STAT_SRC = if Path.pcie = Path.uasyn then 2 else 1))
    ∧ ((lengthSet.ready = Ready.waitImage ∨ lengthSet.ready = Ready.quarantine) ∧ (Safety.Open Path.pcie 8264 lengthSet) ∧
      (State.fld lengthSet BOOT.IMG_LEN_LEN ≠ 0)) := by
  refine ⟨?_, ?_, ?_, ?_⟩ <;> (try simp only [Safety.Open]) <;> decide +kernel

theorem witness_VerificationDecidesReady :
    ((verifying.ready = Ready.verify)) := by
  decide +kernel

theorem witness_InitServesOrHalts :
    ((initing.ready = Ready.init))
    ∧ ((initing.ready = Ready.init) ∧ (initFail.step < 16))
    ∧ ((initing.ready = Ready.init)) := by
  decide +kernel

theorem witness_FuseProgrammingsRun :
    ((Safety.Open Path.pcie 12496 up) ∧ (up.sec.fuse = none) ∧ (State.inService up = true))
    ∧ ((Safety.Open Path.pcie 12496 up) ∧ (up.sec.fuse = none) ∧ (State.inService up = true) ∧ (State.ownerEnable up = false) ∧
      (State.ownerDamaged up = false))
    ∧ ((blowing.sec.fuse = some fuseJob) ∧ (fuseJob.start + usCyc 100 * List.length fuseJob.bits ≤ blowing.cyc)) := by
  refine ⟨?_, ?_, ?_⟩ <;> (try simp only [Safety.Open]) <;> decide +kernel

theorem witness_AttestationAndFuseReads :
    ((Safety.Open Path.pcie 12512 up) ∧ (State.inService up = true) ∧ (up.sec.job = none))
    ∧ ((attesting.sec.job = some attJob) ∧ (State.inService attesting = true))
    ∧ ((Safety.OpenRead Path.pcie 12536 attested) ∧ (State.fld attested SEC.ATT_STAT_VALID = 1) ∧
      (State.fld attested SEC.ATT_INDEX_INDEX < 160))
    ∧ ((Safety.OpenRead Path.pcie 12360 up)) := by
  refine ⟨?_, ?_, ?_, ?_⟩ <;> (try simp only [Safety.Open, Safety.OpenRead]) <;> decide +kernel

theorem witness_RegisterWriteStoresItsFields :
    ((Safety.Open Path.pcie 0x203040 up) ∧ (BitVec.toNat (63 : BitVec 8) % 64 = 63) ∧ (0x40 ≤ 0x203040 % 0x1000) ∧
      ((registerAt 0x203040).any (fun (p, n, r, _) => decide (p.kind ∈ [PageKind.tsu, .clk, .ref, .flow, .arcc, .seal, .hbm, .gal, .pdm, .mac, .sds]) && r.fields.any (fun f => f.acc ≠ .ro) && r.accepts (BitVec.ofNat 48 1) && decide (State.fld up (PG_SHADOW_BUSY (p.base n)) = 0)) = true))
    ∧ ((Safety.Open Path.core 0xa00040 up) ∧ (BitVec.toNat (63 : BitVec 8) % 64 = 63) ∧ (0x40 ≤ 0xa00040 % 0x1000) ∧
      ((registerAt 0xa00040).any (fun (p, n, r, _) => decide (p.kind ∈ [PageKind.tsu, .clk, .ref, .flow, .arcc, .seal, .hbm, .gal, .pdm, .mac, .sds]) && r.fields.any (fun f => f.acc ≠ .ro) && r.accepts (BitVec.ofNat 48 1) && decide (State.fld up (PG_SHADOW_BUSY (p.base n)) = 0)) = true)) := by
  refine ⟨?_, ?_⟩ <;> (try simp only [Safety.Open]) <;> decide +kernel

theorem witness_EventClearClearsNamedBits :
    ((Safety.Open Path.pcie (baseOfIndex 0 + 32) up)) := by
  simp only [Safety.Open]
  decide +kernel

theorem witness_SoftResetReturnsPageToReset :
    (((pageByIndex 0).any (fun (p, n) => decide (p.kind ∈ [PageKind.dir]) && !State.serves up p n) = true) ∧
      (Store.wf resetValue (State.regs up) = true) ∧ (Safety.Open Path.pcie (baseOfIndex 0 + 0x10) up))
    ∧ (((pageByIndex 42).any (fun (p, n) => decide (p.kind ∈ [PageKind.pmc, .tsu, .pdm]) && !State.serves up p n) = true) ∧
      (Store.wf resetValue (State.regs up) = true) ∧ (Safety.Open Path.pcie (baseOfIndex 42 + 0x10) up)) := by
  refine ⟨?_, ?_⟩ <;> (try simp only [Safety.Open]) <;> decide +kernel

theorem witness_BulkReadsAndDroppedWrites :
    ((State.reaches waiting Path.pcie = true) ∧ (State.inService waiting = false) ∧ (waiting.pwr.core = true) ∧
      (waiting.ready = Ready.waitImage ∨ waiting.ready = Ready.verify ∨ waiting.ready = Ready.quarantine))
    ∧ ((State.reaches up Path.pcie = true) ∧ (State.inService up = true) ∧ (State.inReset up 28 = false) ∧
      (State.permits up 28 false (FabTarget.hbm (State.windowAddr up 0)) = true) ∧ (State.readable up (State.windowAddr up 0) 4096 = true))
    ∧ ((State.reaches up Path.pcie = true))
    ∧ ((State.reaches up Path.pcie = true) ∧ (up.pwr.core = true) ∧ (State.inService up = true)) := by
  decide +kernel

theorem witness_Bar2WriteIsReadBack :
    ((State.reaches up Path.pcie = true) ∧ (State.inService up = true) ∧ (State.frozen up 28 = false) ∧ (State.inReset up 28 = false) ∧
      (State.permits up 28 true (FabTarget.hbm (State.windowAddr up 31)) = true) ∧
      (State.writable up (State.windowAddr up 31) (List.length [1]) = true) ∧ (State.windowAddr up 31 % 32 + List.length [1] ≤ 32)) := by
  decide +kernel

theorem witness_BadSizeReadsAreCounted :
    ((State.reaches up Path.pcie = true) ∧ (¬(0 = 8 ∧ 0 % 8 = 0)) ∧ (¬(0 = 4 ∧ 0 % 4 = 0)) ∧ (up.pwr.core = true))
    ∧ ((State.reaches up Path.pcie = true) ∧ (4 % 8 = 4))
    ∧ ((State.reaches up Path.pcie = true) ∧ (0 % 8 = 0)) := by
  decide +kernel

theorem witness_UasynFramesAreAnswered :
    ((State.reaches up Path.uasyn = true) ∧ (parseUasyn rdReq = some (readReq, true)) ∧ (UasynReq.op readReq = 1) ∧
      (readReq.addr % 8 = 0) ∧ (Option.isSome (registerAt readReq.addr) = true) ∧
      (baseOf readReq.addr = Pg.kpr ∨ State.answers up (baseOf readReq.addr) = true ∨ State.inService up = true))
    ∧ ((State.reaches up Path.uasyn = true) ∧ (parseUasyn wrReq = some (writeReq, true)) ∧ (UasynReq.op writeReq = 2) ∧
      (writeReq.addr % 8 = 0) ∧ (State.repeated up writeReq = none))
    ∧ ((State.reaches wroteOnce Path.uasyn = true) ∧ (parseUasyn wrReq = some (writeReq, true)) ∧ (UasynReq.op writeReq = 2) ∧
      (writeReq.addr % 8 = 0) ∧ (State.repeated wroteOnce writeReq = some [1, 2, 3]))
    ∧ ((State.reaches up Path.uasyn = true))
    ∧ ((State.reaches up Path.uasyn = true) ∧ (parseUasyn rdReq = some (readReq, true)) ∧ (UasynReq.op readReq = 1) ∧
      (readReq.addr % 8 = 0) ∧ (baseOf readReq.addr ≠ Pg.kpr) ∧ (State.answers up (baseOf readReq.addr) = true) ∧
      (Option.isSome (registerAt readReq.addr) = true)) := by
  decide +kernel

theorem witness_ShadowsArmDisarmAndCommit :
    (((pageByIndex 196).any (fun (p, n) => decide (p.base n = 0xA00000) && !State.commitsAtOnce up p n && decide (p.kind ≠ .gate)) = true) ∧
      (Safety.Open Path.pcie 0xA00038 up) ∧ (State.fld up (PG_SHADOW_BUSY 0xA00000) = 0))
    ∧ (((pageByIndex 196).any (fun (p, n) => decide (p.base n = 0xA00000)) = true) ∧ (Safety.Open Path.pcie 0xA00038 armed) ∧
      (State.fld armed (PG_SHADOW_BUSY 0xA00000) = 1))
    ∧ (((pageByIndex 42).any (fun (p, n) => decide (p.base n = 0x201000) && State.commitPoint armed p n && decide (p.kind ∈ [PageKind.tsu, .ptp, .clk, .pdm, .tdm])) = true) ∧
      (State.pwr armed).core = true ∧ (State.fld armed (PG_SHADOW_BUSY 0x201000) = 1)) := by
  refine ⟨?_, ?_, ?_⟩ <;> (try simp only [Safety.Open]) <;> decide +kernel

theorem witness_CommandFetchServesNextRing :
    ((State.ringsRun ringed = true) ∧ (ringed.hif.cur = none) ∧ (State.nextRing ringed = some 0))
    ∧ ((State.ringsRun ringed = true) ∧ (ringed.hif.cur = none) ∧ (State.nextRing ringed = some 0) ∧
      (State.checkCommand ringed { ring := 0, index := State.fld ringed (ringCi false 0), words := Vector.toList #v[21474836481, 16, 65536, 0, 0, 0, 0, 0], code := Code.ok } = Code.ok))
    ∧ ((State.ringsRun ringed = true) ∧ (ringed.hif.cur = none) ∧ (State.nextRing ringed = some 0) ∧
      (State.checkCommand ringed { ring := 0, index := State.fld ringed (ringCi false 0), words := Vector.toList #v[9, 0, 0, 0, 0, 0, 0, 0], code := Code.ok } ≠ Code.ok)) := by
  decide +kernel

theorem witness_ListsAndCopiesComplete :
    ((cmdWrite.ring < 16) ∧ (State.fld (running cmdWrite) (ringEntries true cmdWrite.ring) ≠ 0) ∧
      (State.fld (running cmdWrite) (ringEntries false cmdWrite.ring) ≠ 0) ∧ (State.current (running cmdWrite) 1 = some cmdWrite) ∧
      (RingCmd.length cmdWrite = 16 * List.length [(2101312, 1)]))
    ∧ (((cmdWrite).ring < 16) ∧ (State.fld (running cmdWrite) (ringEntries true (cmdWrite).ring) ≠ 0) ∧
      (State.fld (running cmdWrite) (ringEntries false (cmdWrite).ring) ≠ 0) ∧ (State.current (running cmdWrite) 1 = some cmdWrite) ∧
      (RingCmd.length cmdWrite = 16) ∧ (0x203040 < 2 ^ 24) ∧ (State.inReset (running cmdWrite) 28 = false) ∧
      (Safety.Open Path.ring 0x203040 (running cmdWrite)) ∧ (0x40 ≤ 0x203040 % 0x1000) ∧
      ((registerAt 0x203040).any (fun (p, n, r, _) => decide (p.kind ∈ [PageKind.tsu, .clk, .ref, .flow, .arcc, .seal, .hbm, .gal, .pdm, .mac, .sds]) && r.fields.any (fun f => f.acc ≠ .ro) && r.accepts (BitVec.ofNat 48 1) && decide (State.fld (running cmdWrite) (PG_SHADOW_BUSY (p.base n)) = 0)) = true))
    ∧ ((cmdRead.ring < 16) ∧ (State.fld (running cmdRead) (ringEntries true cmdRead.ring) ≠ 0) ∧
      (State.fld (running cmdRead) (ringEntries false cmdRead.ring) ≠ 0) ∧ (State.current (running cmdRead) 2 = some cmdRead) ∧
      (RingCmd.length cmdRead = 8 * List.length [2101312]))
    ∧ ((cmdToHost.ring < 16) ∧ (State.fld (running cmdToHost) (ringEntries true cmdToHost.ring) ≠ 0) ∧
      (State.fld (running cmdToHost) (ringEntries false cmdToHost.ring) ≠ 0) ∧ (State.current (running cmdToHost) 3 = some cmdToHost) ∧
      (State.inReset (running cmdToHost) 28 = true ∨ State.readable (running cmdToHost) (RingCmd.operand cmdToHost 0) (beforeLate (State.hbmReach (running cmdToHost) false (RingCmd.operand cmdToHost 0) (RingCmd.length cmdToHost)) (some 0)) = true))
    ∧ ((cmdFromHost.ring < 16) ∧ (State.fld (running cmdFromHost) (ringEntries true cmdFromHost.ring) ≠ 0) ∧
      (State.fld (running cmdFromHost) (ringEntries false cmdFromHost.ring) ≠ 0) ∧
      (State.current (running cmdFromHost) 4 = some cmdFromHost) ∧ (List.length (List.replicate 64 7) = RingCmd.length cmdFromHost) ∧
      (State.frozen (running cmdFromHost) 28 = true ∨ State.inReset (running cmdFromHost) 28 = true ∨ State.writable (running cmdFromHost) (RingCmd.operand cmdFromHost 0) (beforeLate (State.hbmReach (running cmdFromHost) true (RingCmd.operand cmdFromHost 0) (RingCmd.length cmdFromHost)) none) = true))
    ∧ ((cmdToHost.ring < 16) ∧ (State.fld (running cmdToHost) (ringEntries true cmdToHost.ring) ≠ 0) ∧
      (State.fld (running cmdToHost) (ringEntries false cmdToHost.ring) ≠ 0) ∧ (State.current (running cmdToHost) 3 = some cmdToHost) ∧
      (State.inReset (running cmdToHost) 28 = false) ∧
      (State.hbmReach (running cmdToHost) false (RingCmd.operand cmdToHost 0) (RingCmd.length cmdToHost) = RingCmd.length cmdToHost) ∧
      (State.readable (running cmdToHost) (RingCmd.operand cmdToHost 0) (RingCmd.length cmdToHost) = true))
    ∧ ((cmdFromHost.ring < 16) ∧ (State.fld (running cmdFromHost) (ringEntries true cmdFromHost.ring) ≠ 0) ∧
      (State.fld (running cmdFromHost) (ringEntries false cmdFromHost.ring) ≠ 0) ∧
      (State.current (running cmdFromHost) 4 = some cmdFromHost) ∧ (List.length (List.replicate 64 7) = RingCmd.length cmdFromHost) ∧
      (State.frozen (running cmdFromHost) 28 = false) ∧ (State.inReset (running cmdFromHost) 28 = false) ∧
      (State.hbmReach (running cmdFromHost) true (RingCmd.operand cmdFromHost 0) (RingCmd.length cmdFromHost) = RingCmd.length cmdFromHost) ∧
      (State.writable (running cmdFromHost) (RingCmd.operand cmdFromHost 0) (RingCmd.length cmdFromHost) = true))
    ∧ ((cmdHost.ring < 16) ∧ (State.fld (running cmdHost) (ringEntries true cmdHost.ring) ≠ 0) ∧
      (State.fld (running cmdHost) (ringEntries false cmdHost.ring) ≠ 0) ∧ (State.current (running cmdHost) 32 = some cmdHost) ∧
      (List.length (List.replicate 8 3) = RingCmd.length cmdHost)) := by
  refine ⟨?_, ?_, ?_, ?_, ?_, ?_, ?_, ?_⟩ <;> (try simp only [Safety.Open]) <;> decide +kernel

theorem witness_HeartbeatIsWrittenOrMissed :
    ((beating.hif.hbNext = some 0) ∧ (State.inService beating = true) ∧ (State.coreRuns beating 0 = true) ∧
      (State.fld beating (ringEntries true 0) ≠ 0) ∧ (0 ≤ beating.cyc) ∧
      (beating.hif.d3hot = false ∧ beating.hif.linkUp = true ∧ 2 ≤ State.replyFree beating 0))
    ∧ ((beatingD3.hif.hbNext = some 0) ∧ (State.inService beatingD3 = true) ∧ (State.coreRuns beatingD3 0 = true) ∧
      (State.fld beatingD3 (ringEntries true 0) ≠ 0) ∧ (0 ≤ beatingD3.cyc) ∧
      (beatingD3.hif.d3hot = true ∨ beatingD3.hif.linkUp = false ∨ State.replyFree beatingD3 0 < 2)) := by
  decide +kernel

theorem witness_DefaultTargetAndTimeoutAreReported :
    ((State.issues up 0 = true))
    ∧ ((up.pwr.core = true) ∧ (State.isHalted up = false)) := by
  decide +kernel

theorem witness_ViolationFreezesTheMaster :
    ((State.inService up = true) ∧ (Safety.touches ViolKind.page (fabTarget 38659952704) = true) ∧
      (State.permits up 0 true (fabTarget 38659952704) = false) ∧ (State.frozen up 0 = false) ∧ ((State.master up 0).draining = false) ∧
      (0 = 28 → true = true)) := by
  decide +kernel

theorem witness_DrainsEndAndThawsRelease :
    (((State.master drainingBay 0).draining = true))
    ∧ ((Safety.Open Path.pcie 4384 frozenBay) ∧ (State.frozen frozenBay 0 = true) ∧ ((State.master frozenBay 0).draining = false))
    ∧ ((Safety.Open Path.pcie 4384 frozenBay) ∧ (State.frozen frozenBay 0 = true) ∧ ((State.master frozenBay 0).draining = false) ∧
      (0 ≠ 28)) := by
  refine ⟨?_, ?_, ?_⟩ <;> (try simp only [Safety.Open]) <;> decide +kernel

theorem witness_PcieLinkComesAndGoes :
    ((linkDownState.pwr.aux = true) ∧ (linkDownState.pins.perstN = true) ∧ (linkDownState.hif.lanesOn = true) ∧
      (linkDownState.hif.linkUp = false) ∧ (1 = 1 ∨ 1 = 2 ∨ 1 = 4 ∨ 1 = 8))
    ∧ ((up.pwr.aux = true) ∧ (up.pins.perstN = true) ∧ (up.hif.lanesOn = true) ∧ (up.hif.linkUp = true) ∧ (1 ≤ 1) ∧ (1 ≤ 5) ∧
      (1 = 1 ∨ 1 = 2 ∨ 1 = 4 ∨ 1 = 8))
    ∧ ((up.pwr.aux = true) ∧ (up.hif.linkUp = true))
    ∧ ((up.hif.linkUp = true) ∧ (up.ready ≠ Ready.cold))
    ∧ ((linkDownState.hif.linkUp = false ∨ linkDownState.ready = Ready.cold)) := by
  decide +kernel

theorem witness_NextSecondRaisesPps :
    ((up.pwr.aux = true) ∧ (10732049531 ≤ State.fld up PTP.INCR_INCR) ∧ (State.fld up PTP.INCR_INCR ≤ 10742786949) ∧
      (up.ctr < 2 ^ 48 * Config.unitsPerSec)) := by
  decide +kernel

theorem witness_PllLossHalts :
    ((up.pwr.aux = true) ∧ (true = true ∨ true = true ∧ up.pwr.core = true)) := by
  decide +kernel

theorem witness_OffsetSampleIsReportedAndServed :
    ((State.inService up = true) ∧
      (State.fld up PTP.STAT_ACTIVE_PORT ≠ 1 ∨ State.hears up 1 { dot1as := false, domain := 127 } = false ∨ State.spansStep up 0 = true))
    ∧ ((State.inService linked = true) ∧ (State.fld linked PTP.STAT_ACTIVE_PORT = 0) ∧
      (State.hears linked 0 { dot1as := false, domain := 127 } = true) ∧ (State.syncAccepted linked = true) ∧
      (State.spansStep linked 0 = false)) := by
  decide +kernel

theorem witness_PathDelayAndMastersFollow :
    ((State.inService servoState = true) ∧ (State.fld servoState PTP.STAT_ACTIVE_PORT = 1) ∧
      (State.hears servoState 1 { dot1as := false, domain := 127 } = true) ∧ (State.spansStep servoState 0 = false) ∧
      (servoState.servo.delay = some 0))
    ∧ ((holding.servo.holdEnd = some 0) ∧ (0 ≤ holding.cyc))
    ∧ ((State.inService linked = true) ∧ ((none : Option Announce) = none))
    ∧ ((State.inService linked = true) ∧ (State.hears linked 3 { dot1as := false, domain := 127 } = true))
    ∧ ((State.inService servoState = true) ∧ (State.fld servoState PTP.MODE_MODE = 1) ∧ (State.fld servoState PTP.STAT_STATE ≠ 4)) := by
  decide +kernel

theorem witness_HostStepsAndModes :
    ((Safety.Open Path.pcie 2097280 up) ∧ (1 < 1000000000) ∧ (up.servo.stepAt ≠ some up.cyc) ∧
      (¬(State.fld up PTP.STEP_SEC_SEC = 0 ∧ 1 = 0)))
    ∧ ((Safety.Open Path.pcie 2097224 up) ∧ (0 ≤ 2))
    ∧ ((Safety.Open Path.pcie 2097216 up) ∧ (bitsOf 0 32 8 ≤ 127) ∧ (bitsOf 0 0 2 ≤ 1)) := by
  refine ⟨?_, ?_, ?_⟩ <;> (try simp only [Safety.Open]) <;> decide +kernel

theorem witness_ReferenceIsMonitored :
    ((State.inService refMode = true) ∧ (State.fld refMode REF.CFG_ENABLE = 1))
    ∧ ((State.inService refSeeking = true) ∧ (State.fld refSeeking REF.CFG_ENABLE = 1) ∧
      (State.fld refSeeking REF.STAT_STATE = 1 ∨ State.fld refSeeking REF.STAT_STATE = 3) ∧ (2000000000000 ≤ refSeeking.refMon.good))
    ∧ ((State.inService refMode = true) ∧ (State.fld refMode PTP.MODE_MODE = 2) ∧ (State.fld refMode REF.STAT_STATE = 2) ∧
      (refMode.refMon.bad = 0)) := by
  decide +kernel

theorem witness_LinkStatesFollow :
    ((State.inService (laneIn 1) = true) ∧ (State.fld (laneIn 1) (LANE.STAT_STATE 0) = 1))
    ∧ ((State.fld (laneIn 2) (LANE.STAT_STATE 0) = 2))
    ∧ ((State.fld (laneJust 3) (LANE.STAT_STATE 0) = 3) ∧ (State.laneTime (laneJust 3) 0 ≤ msCyc 1))
    ∧ ((State.fld (laneJust 4) (LANE.STAT_STATE 0) = 4) ∧
      (State.laneTime (laneJust 4) 0 ≤ if State.fld (laneJust 4) (MAC.STAT_SPEED 0) = 2 then msCyc 5 else msCyc 15))
    ∧ ((State.fld (laneJust 5) (LANE.STAT_STATE 0) = 5) ∧ (State.fld (laneJust 5) (LANE.TEST_GEN 0) = 0) ∧
      (State.laneTime (laneJust 5) 0 ≤ msCyc 2))
    ∧ ((State.laneLimit (laneIn 3) 0 = some (msCyc 1)) ∧ (msCyc 1 ≤ State.laneTime (laneIn 3) 0))
    ∧ ((State.fld laneResumes (LANE.STAT_STATE 0) = 6))
    ∧ ((State.fld laneLoops (LANE.STAT_STATE 0) = 6) ∧ (State.fld laneLoops (LANE.CFG_ADAPT_HOLD 0) = 0) ∧
      ((State.lane laneLoops 0).idleFrozen = false) ∧ ((State.lane laneLoops 0).idleFrom + msCyc 1 ≤ laneLoops.cyc))
    ∧ ((State.fld laneResumes (LANE.STAT_STATE 0) = 6))
    ∧ (((State.lane laneResumes 0).idleFrozen = true) ∧ ((State.lane laneResumes 0).resumeAt = some 0) ∧ (0 ≤ laneResumes.cyc))
    ∧ (((State.lane laneRelock 0).relock = true) ∧ (State.fld laneRelock (LANE.STAT_STATE 0) = 0) ∧ (State.mayRun laneRelock 0 = true))
    ∧ ((State.fld (laneIn 7) (LANE.STAT_STATE 0) = 7) ∧ (State.fld (laneIn 7) (LANE.CFG_DEEP_REST 0) = 0)) := by
  decide +kernel

theorem witness_LaneTestsEnablesAndEyes :
    ((Safety.Open Path.pcie (Pg.lane 0 + 144) up) ∧ (patternFits (State.fld up (LANE.CFG_SPEED 0)) (bitsOf 0 0 4) = true) ∧
      (patternFits (State.fld up (LANE.CFG_SPEED 0)) (bitsOf 0 4 4) = true) ∧ (bitsOf 0 0 4 = 0 ∨ State.portBound up 0 = false))
    ∧ ((Safety.Open Path.pcie (Pg.lane 0 + 16) up) ∧ (State.portBound up 0 = false) ∧
      (false ≠ decide (State.fld up (PG_CTRL_ENABLE (Pg.lane 0)) = 1)))
    ∧ ((State.fld lanePowered (SDS.STAT_POWERED 0) = 1) ∧ (State.fld lanePowered (SDS.STAT_CDR_LOCK 0) = 1)) := by
  refine ⟨?_, ?_, ?_⟩ <;> (try simp only [Safety.Open]) <;> decide +kernel

theorem witness_FramesAreCounted :
    ((State.looped laneLoops 0 = true) ∧ ((State.lane laneLoops 0).echoes = []))
    ∧ ((State.inService laneResumes = true) ∧ (State.portActive laneResumes 0 = true) ∧ (State.looped laneResumes 0 = false))
    ∧ ((State.inService up = true) ∧ (bitAt (State.fld up PTP.CFG_PORT_MASK) 0 = true) ∧
      (State.fld up PTP.CFG_PROFILE = 1 ∨ State.fld up PTP.STAT_ACTIVE_PORT = 0) ∧ (State.stopped up 26 = false)) := by
  decide +kernel

theorem witness_LegsHearAndFallQuiet :
    ((State.inService flowOn = true) ∧ (State.legOn flowOn 0 Leg.a = true) ∧ (State.delivers flowOn 0 Leg.a = true) ∧
      (State.stopped flowOn 24 = false) ∧ (State.fld flowOn (FLOW.CFG_KIND 0) = 1) ∧
      (State.slotRuns flowOn (State.fld flowOn (FLOW.CFG_SLOT 0)) = false))
    ∧ ((State.inService flowSlotRuns = true) ∧ (State.legOn flowSlotRuns 0 Leg.a = true) ∧ (State.delivers flowSlotRuns 0 Leg.a = true) ∧
      (State.stopped flowSlotRuns 24 = false) ∧ (State.fld flowSlotRuns (FLOW.CFG_KIND 0) = 1) ∧
      (State.slotRuns flowSlotRuns (State.fld flowSlotRuns (FLOW.CFG_SLOT 0)) = true) ∧
      ((State.slot flowSlotRuns (State.fld flowSlotRuns (FLOW.CFG_SLOT 0))).lost = true))
    ∧ ((State.inService receiving = true) ∧ (State.legOn receiving 0 Leg.a = true) ∧ (State.delivers receiving 0 Leg.a = true) ∧
      (State.stopped receiving 24 = false) ∧ (State.fld receiving (FLOW.CFG_KIND 0) = 1) ∧
      (State.slotRuns receiving (State.fld receiving (FLOW.CFG_SLOT 0)) = true) ∧
      ((State.slot receiving (State.fld receiving (FLOW.CFG_SLOT 0))).lost = false) ∧
      (State.fld receiving (FLOW.CFG_PT 0) = 0 ∨ State.fld receiving (FLOW.CFG_PT 0) = (vpkt 6 7).pt) ∧
      (List.Nodup (List.map Picture.grid (State.sub receiving (State.fld receiving (FLOW.CFG_SLOT 0)) (State.fld receiving (FLOW.CFG_SUBSTREAM 0))).pics)) ∧
      (List.find? (fun p => !p.synth && decide (p.rtp = (vpkt 6 7).rtp % 2 ^ 32)) (State.sub receiving (State.fld receiving (FLOW.CFG_SLOT 0)) (State.fld receiving (FLOW.CFG_SUBSTREAM 0))).pics = some keptPic) ∧
      (seqKey 0 6 = seqKey (if keptPic.seqs = [] then (vpkt 6 7).seq else keptPic.seq0) (vpkt 6 7).seq) ∧
      (packetMisfit receiving (State.fld receiving (FLOW.CFG_SLOT 0)) (vpkt 6 7) = false))
    ∧ ((State.inService flowOn = true) ∧ (State.legOn flowOn 0 Leg.a = true) ∧
      ((Flow.leg (State.flow flowOn 0) Leg.a).reported = false) ∧
      ((Flow.leg (State.flow flowOn 0) Leg.a).lastAt + msCyc 10 ≤ flowOn.cyc)) := by
  decide +kernel

theorem witness_OpenLinesAreConcealed :
    ((State.inService openLineState = true) ∧ (State.stopped openLineState 24 = false) ∧
      (List.Nodup (List.map Picture.grid (State.sub openLineState 0 0).pics)) ∧
      (List.find? (fun p => decide ((Store.at p.lines { } 3).groups ≠ []) && !decide (3 ∈ p.closed) && decide ((Store.at p.lines { } 3).firstAt + usCyc 150 ≤ openLineState.cyc)) (State.sub openLineState 0 0).pics = some openPic))
    ∧ ((State.inService openLineState = true) ∧ (State.stopped openLineState 24 = false) ∧
      (List.Nodup (List.map Picture.grid (State.sub openLineState 0 0).pics)) ∧
      (List.find? (fun p => !decide (0 ∈ p.shut) && decide (0 < stripesOf (State.lines openLineState 0) p.ctu32)) (State.sub openLineState 0 0).pics = some openPic) ∧
      (State.slotRuns openLineState 0 = true) ∧ (State.windowClose openLineState 0 openPic.grid 0 openPic.ctu32 ≤ openLineState.ctr))
    ∧ ((State.inService expecting = true) ∧ (State.stopped expecting 24 = false) ∧
      (List.Nodup (List.map Picture.grid (State.sub expecting 0 0).pics)) ∧ (State.slotRuns expecting 0 = true) ∧
      (List.find? (fun p => !decide (0 ∈ p.shut) && decide (0 < stripesOf (State.lines expecting 0) p.ctu32)) (State.sub expecting 0 0).pics = none) ∧
      (State.absentNow expecting 0 0 = some 5)) := by
  decide +kernel

theorem witness_StripesAreAnnouncedAndPassed :
    ((State.inService announcing = true) ∧ (State.stopped announcing 27 = false) ∧
      (List.Nodup (List.map Picture.grid (State.sub announcing 0 0).pics)) ∧ (State.toAnnounce announcing 0 0 = some donePic) ∧
      (State.stripeReady announcing 0 donePic = true))
    ∧ ((announcingHeld.held = [ann0]) ∧ (State.inService announcingHeld = true) ∧ (State.stopped announcingHeld 27 = false) ∧
      (State.canCreate announcingHeld ann0 = true))
    ∧ ((Safety.Open Path.pcie (Pg.chin 0 + 72) up) ∧ (State.fld up (PG_SHADOW_BUSY (Pg.chin 0)) = 0))
    ∧ ((State.inService (passing false 0) = true) ∧ (State.stopped (passing false 0) 25 = false) ∧
      (takeFirst (fun x => Option.isSome x.start && decide (x.ann.slot = 0) && decide (x.ann.sub = 0) && decide (x.ann.stripe = 0)) (passing false 0).passes = some (openPass, []))) := by
  refine ⟨?_, ?_, ?_, ?_⟩ <;> (try simp only [Safety.Open]) <;> decide +kernel

theorem witness_TablesAndMapsLoad :
    ((Safety.Open Path.pcie (Pg.paf 0 + 88 + 24 * 0) up) ∧ (State.fld up (PAF.LUT_STAT_BUSY 0 0) = 0) ∧
      (State.fld up (PAF.LUT_STAT_PENDING 0 0) = 0) ∧ (State.fld up (PAF.LUT_ADDR_ADDR 0 0) % 64 = 0) ∧
      (State.fld up (PAF.LUT_ADDR_ADDR 0 0) + 287496 ≤ 34359738368))
    ∧ ((State.inService lutBusy = true) ∧ (State.fld lutBusy (PAF.LUT_STAT_BUSY 0 0) = 1))
    ∧ ((Safety.Open Path.pcie (Pg.stc 0 + 1032) up) ∧ (State.fld up (STC.MZMAP_STAT_BUSY 0 0) = 0) ∧
      (State.fld up (STC.MZMAP_STAT_PENDING 0 0) = 0) ∧ (State.fld up (STC.MZMAP_ADDR_ADDR 0) % 64 = 0))
    ∧ ((State.inService mapBusy = true) ∧ (State.fld mapBusy (STC.MZMAP_STAT_BUSY 0 0) = 1)) := by
  refine ⟨?_, ?_, ?_, ?_⟩ <;> (try simp only [Safety.Open]) <;> decide +kernel

theorem witness_SpanChangesAtItsBoundary :
    ((Safety.Open Path.pcie 7340096 up) ∧ (1 ≤ 2) ∧ (true = if 1 = 0 then false else if 1 = 1 then true else false) ∧
      (State.fld up DSP.SPAN_STAT_THERMAL = 0) ∧ (up.span.pending = false) ∧
      (¬(1 = State.fld up DSP.SPAN_STAT_CURRENT ∧ true = State.ctuNow up)) ∧
      (List.all (State.running up) (State.dPossible up (changeSpan 1 true up) true) = true) ∧
      (State.runningPixels up ≤ spanLimit 1 true) ∧ (State.spanBoundary up = some 42953967927296000000) ∧
      (State.withinTen up 42953967927296000000 = true))
    ∧ ((spanPending.span.boundary = some 0) ∧ (State.inService spanPending = true) ∧ (spanPending.span.pending = true) ∧
      (0 ≤ spanPending.ctr)) := by
  refine ⟨?_, ?_⟩ <;> (try simp only [Safety.Open]) <;> decide +kernel

theorem witness_BoundariesPoolsAndEnables :
    (((State.slot atBoundary 0).boundary = some 5) ∧ (State.inService atBoundary = true) ∧ (State.slotRuns atBoundary 0 = true) ∧
      (gridAt (State.rate atBoundary 0) 5 ≤ atBoundary.ctr))
    ∧ ((State.inService rebuilding = true) ∧ (State.stopped rebuilding 29 = false) ∧ (State.fld rebuilding (STC.TABLES_BUSY 0) = 1) ∧
      (State.backCoresRun rebuilding = true))
    ∧ ((State.inService pooled = true) ∧ (State.fld pooled (DSP.POOL_EN 0) = 1) ∧ (List.head? (State.members pooled 0) = some 0) ∧
      (State.atGridPoint pooled (State.rate pooled (outSlot 0)) = true))
    ∧ ((Safety.Open Path.pcie (Pg.bay 0 + 16) up) ∧
      (false = false → State.fld up (PG_CTRL_ENABLE (Pg.bay 0)) = 1 → State.runningPixels up ≤ State.startLimit up * ↑(State.bayCount up - b2n (bitAt (State.fld up ARCC.BAYS_AVAILABLE) 0)) / 16))
    ∧ ((Safety.Open Path.pcie (Pg.mze 0 + 16) up) ∧
      (false = false → State.fld up (PG_CTRL_ENABLE (Pg.mze 0)) = 1 → State.mzCapacity up (State.engineCount up - b2n (decide (State.fld up (MZE.STAT_STATE 0) ≤ 1))) = true)) := by
  refine ⟨?_, ?_, ?_, ?_, ?_⟩ <;> (try simp only [Safety.Open]) <;> decide +kernel

theorem witness_TasksRunOnEngines :
    ((State.inService readyEncode = true) ∧ (State.stopped readyEncode 27 = false) ∧
      (List.head? (State.eligible readyEncode Consumer.bays) = some 0) ∧
      (State.firstTask readyEncode Consumer.bays = some (3, readyTask)) ∧ (outSlot readyTask.out < 8) ∧
      (readyTask.st = .ready 5 0 0 ∧ 5 < 16))
    ∧ ((State.inService ticking = true) ∧ (State.stopped ticking 27 = false) ∧ (State.atMicrosecond ticking = true) ∧
      (List.Nodup (List.map Prod.fst ticking.tasks)) ∧ (State.task ticking 3 = some readyTask) ∧
      (levelOf false (State.limitOf ticking readyTask - ticking.cyc) < 16))
    ∧ ((State.inService bayFirst = true) ∧ (State.bayRun bayFirst 0 = some firstRun) ∧
      (State.task bayFirst firstRun.task = some runningTask) ∧ (outSlot runningTask.out < 8) ∧ (firstRun.landings < 8) ∧
      (firstRun.replay = none ∨ firstRun.held = false) ∧ ((beforeLanding bayFirst runningTask firstRun []).fits = true) ∧
      ((beforeLanding bayFirst runningTask firstRun []).run.ctus = landingCtu (State.outCtus bayFirst runningTask.out runningTask.ann.ctu32) firstRun.landings))
    ∧ ((State.inService bayLast = true) ∧ (State.bayRun bayLast 0 = some lastRun) ∧
      (State.task bayLast lastRun.task = some runningTask) ∧ (outSlot runningTask.out < 8) ∧ (8 ≤ lastRun.landings) ∧ (lastRun.replay = none) ∧
      (bayLast.cyc ≤ runningTask.dead) ∧ ((codeCtus bayLast runningTask lastRun codedSlice.ctus).fits = true) ∧
      ((codeCtus bayLast runningTask lastRun codedSlice.ctus).run.ctus = State.outCtus bayLast runningTask.out runningTask.ann.ctu32) ∧
      (codedSlice.cycles ≤ 4096 + (codeCtus bayLast runningTask lastRun codedSlice.ctus).run.budget + lastRun.extra) ∧
      (codedSlice.bytes.length = sliceBytes ((codeCtus bayLast runningTask lastRun codedSlice.ctus).run.bits - State.stripeHeader bayLast runningTask)) ∧
      (State.sliceFits bayLast runningTask lastRun.cap codedSlice.bytes = true)) := by
  refine ⟨by decide +kernel, by decide +kernel, by decide +kernel, by decide +kernel, rfl, by decide +kernel, by decide +kernel, by decide +kernel,
    rfl, by decide +kernel, by decide +kernel, by decide +kernel, by decide +kernel, ?_, ?_⟩
  · have b : (codeCtus bayLast runningTask lastRun codedSlice.ctus).run.bits = lastRun.bits + codeBits (plainCtu 64 64 0 16) := by
      unfold codeCtus codedSlice
      simp only [List.foldl_cons, List.foldl_nil]
      unfold codeCtu
      simp only
    have h : State.stripeHeader bayLast runningTask = lastRun.bits := State.stripeHeader_bays bayPic _ _
    rw [b, h, Nat.add_sub_cancel_left]
    decide +kernel
  · have c := State.stripeBits_bays bayPic [(0, lastRun)] 0 runningTask.stripe codedPic [1, 1]
    have h : State.picOf bayLast runningTask.out runningTask.ann.grid = some codedPic := by decide +kernel
    have b := State.sliceBits_le bayLast 0 runningTask.stripe codedPic [1, 1]
    unfold State.sliceFits
    rw [h, show runningTask.out = 0 by decide +kernel, show codedSlice.bytes = [1, 1] from rfl]
    exact decide_eq_true ⟨Nat.le_trans (Nat.le_of_eq c) (Nat.le_max_left _ _), Nat.le_trans b (by decide)⟩

theorem witness_LateStripesAreFloored :
    ((State.inService lateEncode = true) ∧ (State.task lateEncode 3 = some lateTask) ∧
      (TaskKind.consumer lateTask.kind = Consumer.bays) ∧ (Task.engine lateTask = none) ∧
      (State.limitOf lateEncode lateTask ≤ lateEncode.cyc) ∧ (outSlot lateTask.out < 8))
    ∧ ((State.inService bayLate = true) ∧ (State.bayRun bayLate 0 = some oneRun) ∧ (State.task bayLate oneRun.task = some lateRunning) ∧
      (lateRunning.dead ≤ bayLate.cyc) ∧ (outSlot lateRunning.out < 8))
    ∧ ((State.inService flooring = true) ∧ (flooring.floorQ = [] ++ [3]) ∧
      (∀ j ∈ [], ∀ (y : Task), State.task flooring j = some y → State.pathsFor flooring y.out = []) ∧
      (State.task flooring 3 = some floorTask) ∧ (List.head? (State.pathsFor flooring floorTask.out) = some 0))
    ∧ ((State.inService floorAtWork = true) ∧ (List.find? (fun e => decide (e.1 = 8)) floorAtWork.floors = some (8, floorRun)) ∧
      (State.task floorAtWork floorRun.task = some floorTask))
    ∧ ((State.inService bayFirst = true) ∧ (State.bayRun bayFirst 0 = some firstRun) ∧
      (State.task bayFirst firstRun.task = some runningTask) ∧ (outSlot runningTask.out < 8) ∧ (firstRun.replay = none) ∧
      (Safety.retires bayFirst 0 = false))
    ∧ ((State.inService bayDone = true) ∧ (State.bayRun bayDone 0 = none) ∧ ((Store.at bayDone.bayLog {} 0).doneAt = some bayDone.cyc)) := by
  decide +kernel

theorem witness_EngineFaultsAreCounted :
    ((1 ≤ 1))
    ∧ ((residueMismatch (CheckedOp.add 0 1) 1 = false))
    ∧ ((State.inService bayOne = true) ∧ (residueMismatch (CheckedOp.add 0 0) 1 = true) ∧ (8 < 9) ∧
      (State.bayRun bayOne 0 = some oneRun) ∧ (oneRun.replay = none) ∧ (oneRun.landings ≠ 0))
    ∧ ((State.inService engineRuns = true) ∧ (residueMismatch (CheckedOp.add 0 0) 1 = true) ∧ (0 < 2) ∧
      (State.mzeWorks engineRuns 0 = true))
    ∧ ((State.inService up = true) ∧ (residueMismatch (CheckedOp.add 0 0) 1 = true))
    ∧ ((State.inService bayReplay = true) ∧ (State.bayRun bayReplay 0 = some replayRun) ∧ (replayRun.replay = some (4, 2)) ∧
      (State.task bayReplay replayRun.task = some runningTask) ∧ (outSlot runningTask.out < 8) ∧
      (State.replayInTime bayReplay replayRun runningTask = true) ∧ (Safety.retires bayReplay 0 = false))
    ∧ ((State.inService bayThird = true) ∧ (State.bayRun bayThird 0 = some replayRun) ∧ (replayRun.replay = some (4, 2)) ∧
      (State.task bayThird replayRun.task = some runningTask) ∧ (State.replayInTime bayThird replayRun runningTask = true) ∧
      (Safety.retires bayThird 0 = true))
    ∧ ((State.inService bayOne = true) ∧ (State.bayRun bayOne 0 = some oneRun) ∧ (State.task bayOne oneRun.task = some runningTask) ∧
      (outSlot runningTask.out < 8))
    ∧ ((State.inService assembling = true) ∧ (Option.isSome (State.runningOn assembling Consumer.assembly 0) = true))
    ∧ ((State.inService floorAtWork = true) ∧ (List.find? (fun e => decide (e.1 = 8)) floorAtWork.floors = some (8, floorRun)) ∧
      (State.task floorAtWork floorRun.task = some floorTask))
    ∧ ((State.inService engineRuns = true) ∧ (State.mzeWorks engineRuns 0 = true))
    ∧ ((State.inService up = true)) := by
  decide +kernel

theorem witness_StripesAndBandsReachTheirQueues :
    ((State.inService assemblingPic = true) ∧ (State.runningOn assemblingPic Consumer.assembly 0 = some (3, assembleTask)) ∧
      (assembleTask.kind = TaskKind.assemble) ∧ (State.picOf assemblingPic assembleTask.out assembleTask.ann.grid = some codedPic) ∧
      (State.stripeStream assemblingPic assembleTask.out assembleTask.stripe codedPic assembleTask.code = State.stripeStream assemblingPic 0 0 codedPic []) ∧
      (0 ≤ 256 + (List.length (State.stripeStream assemblingPic 0 0 codedPic []) + 31) / 32))
    ∧ ((State.inService engineRuns = true) ∧ (State.runningOn engineRuns Consumer.mze 0 = some (3, mezzTask)) ∧
      (List.length codedBytes.bytes = if (mezzTask.ann.repeat_ || mezzTask.ann.stalled) = true then 0 else List.foldl (fun x1 x2 => x1 + x2) 0 (List.map (fun e => State.precinctSize engineRuns mezzTask.out e.1 e.2.1 e.2.2) (State.bandSlices engineRuns mezzTask))) ∧
      (codedBytes.cycles ≤ mzBound (State.taskPixels engineRuns mezzTask)))
    ∧ ((State.inService packing = true) ∧ (State.task packing 3 = some packetTask) ∧ (packetTask.kind = TaskKind.packet) ∧
      (Option.isSome (Task.engine packetTask) = true) ∧ (State.stopped packing 26 = false) ∧
      (List.Nodup (List.map Prod.fst packing.tasks)))
    ∧ ((State.inService bandLate = true) ∧ (State.task bandLate 3 = some bandTask) ∧ (isMezz bandTask.out = true) ∧
      (bandTask.floored = false) ∧ (bandTask.packed = false) ∧ (List.Nodup (List.map Prod.fst bandLate.tasks)) ∧
      (Task.floorPoint bandTask ≤ bandLate.cyc)) := by
  refine ⟨⟨?_, ?_, ?_, ?_, rfl, Nat.zero_le _⟩, ?_, ?_, ?_⟩ <;> decide +kernel

theorem witness_PacketsAndFramesLeave :
    ((State.inService queuedHeld = true) ∧ (State.stopped queuedHeld 26 = false) ∧
      (splitHeld (State.queue queuedHeld 0) = some ([], pkt .held false, [pkt .held true])) ∧
      ((pkt .held false).launch = some 0 ∧ 0 ≤ queuedHeld.ctr))
    ∧ ((State.inService queuedHeld = true) ∧ (State.stopped queuedHeld 26 = false) ∧
      (State.queue queuedHeld 0 = [pkt .held false] ++ pkt .held true :: []) ∧ ((pkt .held false).spilled = false) ∧
      ((pkt .held true).spilled = true))
    ∧ ((State.inService (queued []) = true) ∧ (State.stopped (queued []) 26 = false) ∧ (State.portActive (queued []) 0 = true) ∧
      ((State.port (queued []) 0).busyTo ≤ (State.cyc (queued []) * 5 : Nat) / (2 : Rat)) ∧
      (∀ d < 8, (bitAt (State.gates (queued []) 0) d = false ∧ (State.port (queued []) 0).shut d = false) ∨ State.shaperReady (queued []) (classBucket 0 d) = false ∨ State.candidates (queued []) 0 0 d = []))
    ∧ ((State.inService queuedFree = true) ∧ (State.stopped queuedFree 26 = false) ∧ (State.portActive queuedFree 0 = true) ∧
      ((State.port queuedFree 0).busyTo ≤ (State.cyc queuedFree * 5 : Nat) / (2 : Rat)) ∧
      (∀ d < 8, 0 < d → (bitAt (State.gates queuedFree 0) d = false ∧ (State.port queuedFree 0).shut d = false) ∨ State.shaperReady queuedFree (classBucket 0 d) = false ∨ State.candidates queuedFree 0 0 d = []) ∧
      (bitAt (State.gates queuedFree 0) 0 = true) ∧ (State.shaperReady queuedFree (classBucket 0 0) = true) ∧
      (State.nextService queuedFree 0 0 0 (State.candidates queuedFree 0 0 0) = some 0) ∧
      (earliestHead (State.candidates queuedFree 0 0 0) 0 = some readyCopy) ∧ (readyCopy.q < 8192) ∧
      (fitsIn (State.wireTime queuedFree 0 (State.wireBytes queuedFree 0 readyCopy.k)) ((State.port queuedFree 0).oper.bind (fun g => g.longest 0)) = true) ∧
      (fitsIn (State.wireTime queuedFree 0 (State.wireBytes queuedFree 0 readyCopy.k)) (openTime (State.port queuedFree 0).oper (State.port queuedFree 0).next 0 queuedFree.ctr) = true)) := by
  decide +kernel

theorem witness_GatesAndShapers :
    ((State.inService gated = true))
    ∧ (((State.port gated 0).next = some nextList) ∧ (State.inService gated = true) ∧ (nextList.start ≤ gated.ctr))
    ∧ ((Safety.Open Path.pcie (Pg.gate 0 + 0x70) gated))
    ∧ (((pageByIndex 177).any (fun (p, n) => decide (p.kind = .gate ∧ n = 0)) = true) ∧
      (Safety.Open Path.pcie (Pg.gate 0 + 0x38) pendingGate) ∧ (State.fld pendingGate (GATE.STAT_PENDING 0) = 1))
    ∧ (((registerAt 0x820050).any (fun (p, n, r, _) => decide (p.kind = .que) && r.accepts 1 && State.allHold up (State.setReg up (State.keyAt up 0x820050 r n) (r.written (State.reg up (State.keyAt up 0x820050 r n)) 1))) = true) ∧
      (Safety.Open Path.pcie 0x820050 up) ∧ (0x820050 % 0x1000 = 0x50))
    ∧ (((registerAt 0x808048).any (fun (p, n, r, _) => decide (p.kind = .shp) && r.accepts 1 && State.allHold up (State.setReg up (State.keyAt up 0x808048 r n) (r.written (State.reg up (State.keyAt up 0x808048 r n)) 1))) = true) ∧
      (Safety.Open Path.pcie 0x808048 up) ∧ (0x48 ≤ 0x808048 % 0x1000 ∧ 0x808048 % 0x1000 < 0x88))
    ∧ (((registerAt 0x808108).any (fun (p, n, r, _) => decide (p.kind = .shp) && r.accepts 1 && State.allHold up (State.setReg up (State.keyAt up 0x808108 r n) (r.written (State.reg up (State.keyAt up 0x808108 r n)) 1))) = true) ∧
      (Safety.Open Path.pcie 0x808108 up) ∧ (0x100 ≤ 0x808108 % 0x1000 ∧ 0x808108 % 0x40 = 8)) := by
  refine ⟨?_, ?_, ?_, ?_, ?_, ?_, ?_⟩ <;> (try simp only [Safety.Open]) <;> decide +kernel

theorem witness_CheckUnitsAndScans :
    ((Safety.Open Path.pcie (28800 + 8 * 0) up) ∧ (State.unitBound up 0 = false))
    ∧ ((Safety.Open Path.pcie (28736 + 8 * 0) up) ∧ (State.unitBound up 0 = false) ∧ (1 ≤ bitsOf (0x60 : Reg) 4 3) ∧
      (bitsOf (0x60 : Reg) 4 3 ≤ 6))
    ∧ ((Safety.OpenRead Path.pcie (28928 + 8 * 0) up))
    ∧ ((PathLatch.of (State.unit up 0).snap Path.pcie = []))
    ∧ ((Safety.Open Path.pcie 29072 chkReady) ∧ (chkReady.scan = none) ∧ (State.fld chkReady CHK.SCAN_LEN_LEN ≠ 0) ∧
      (scanRange (State.fld chkReady CHK.SCAN_ADDR_ADDR) (State.fld chkReady CHK.SCAN_LEN_LEN) = true))
    ∧ ((Safety.Open Path.pcie 29072 up) ∧ (up.scan = none) ∧ (State.fld up CHK.SCAN_LEN_LEN = 0))
    ∧ (((scanning 0 64).scan = some scanRun) ∧ (scanRun.unit = 0) ∧ (State.inService (scanning 0 64) = true) ∧
      (State.issues (scanning 0 64) 30 = true) ∧ (scanRun.fed ≤ scanRun.len) ∧ (scanRun.most (scanning 0 64).cyc = scanRun.len) ∧
      (State.scanReads (scanning 0 64) scanRun = true))
    ∧ (((scanning 0 64).scan = some scanRun) ∧ (scanRun.unit = 0) ∧ (State.inService (scanning 0 64) = true) ∧
      (Resp.decerr ≠ Resp.okay) ∧ (63 < scanRun.len) ∧ (scanRun.fed ≤ scanRun.beatStart 63) ∧ (scanRun.beatStart 63 ≤ scanRun.most (scanning 0 64).cyc))
    ∧ (((scanning 0 64).scan = some scanRun) ∧ (scanRun.unit = 0) ∧ (Safety.Open Path.pcie 29072 (scanning 0 64)) ∧ (scanRun.fed ≤ scanRun.len) ∧
      (scanRun.most (scanning 0 64).cyc = scanRun.len)) := by
  refine ⟨?_, ?_, ?_, ?_, ?_, ?_, ?_, ?_, ?_⟩ <;> (try simp only [Safety.Open, Safety.OpenRead]) <;> decide +kernel

theorem witness_CountersAndLatchedReads :
    ((State.inService (topCounter 1 1) = true) ∧ (0 % 2 = 0 ∨ bitsOf (State.reg (topCounter 1 1) (evselKey 0)) 46 1 = 0) ∧
      (State.atTop (topCounter 1 1) 0 = true))
    ∧ ((State.inService (topCounter 1 1) = true) ∧ (1 % 2 = 1) ∧ (bitsOf (State.reg (topCounter 1 1) (evselKey 1)) 46 1 = 1) ∧
      (State.atTop (topCounter 1 1) (1 - 1) = true))
    ∧ ((Safety.Open Path.pcie 24648 up))
    ∧ ((Safety.OpenRead Path.pcie 4392 up))
    ∧ ((Safety.OpenRead Path.pcie 2097296 up))
    ∧ ((Safety.OpenRead Path.pcie 4208 up)) := by
  refine ⟨?_, ?_, ?_, ?_, ?_, ?_⟩ <;> (try simp only [Safety.Open, Safety.OpenRead]) <;> decide +kernel

theorem witness_CodedWordsAreCorrectedOrKept :
    ((State.inService up = true) ∧ (readerArray .hostRead = false) ∧ (Store.at up.badWords false (0 / 8) = false))
    ∧ ((State.inService up = true) ∧ (71 < 72) ∧ (BitVec.toNat (0x800000000000000000 : BitVec 72) = 2 ^ 71) ∧
      (readerArray (.controlCore 0) = false) ∧ (State.reads up (.controlCore 0) = true) ∧ (Store.at up.badWords false (0 / 8) = false))
    ∧ ((State.inService up = true) ∧ (63 < 64) ∧ (BitVec.toNat (0x8000000000000000 : BitVec 72) = 2 ^ 63) ∧
      (readerArray (.pafTable 0 0 5) = true) ∧ (State.knownBad up (.pafTable 0 0 5) = false))
    ∧ ((State.inService galData = true) ∧ (70 < 71) ∧ (71 < 72) ∧ (BitVec.toNat (0xC00000000000000000 : BitVec 72) = 2 ^ 70 + 2 ^ 71) ∧
      (Store.at galData.badWords false (BitVec.toNat (0x3FFFFFF : BitVec 26) / 8) = false))
    ∧ ((State.inService galData = true) ∧ (Store.at galData.wbacks [] (8 / 8) = [1, 2, 3, 4, 5, 6, 7, 8]) ∧
      ([1, 2, 3, 4, 5, 6, 7, 8] ≠ []))
    ∧ ((State.inService galData = true) ∧ (galData.pwr.core = true) ∧ ((1 : BitVec 8) ≠ 0) ∧ (Store.at galData.badWords false (8 / 8) = false))
    ∧ ((State.inService badWord = true) ∧ (badWord.pwr.core = true) ∧ ((254 : BitVec 8) ≠ 255) ∧ (Store.at badWord.badWords false (8 / 8) = true))
    ∧ ((State.inService galData = true) ∧ (galData.pwr.core = true) ∧ (State.fld galData GAL.SCRUB_EN = 1) ∧
      (0 = Store.at galData.scrub 0 (scrubberOf 0) % bankWords) ∧ ((galleryPlace 0).word = 0) ∧ (0 < State.codedWords galData (scrubberOf 0)) ∧
      (Store.at galData.badWords false (0 / 8) = false))
    ∧ ((State.inService owing = true) ∧ (State.readsServed (pcIn { wq := [fullEntry] }) (pcOf 0) = true) ∧
      (State.wqEntry (pcIn { wq := [fullEntry] }) (0 / 32) = some fullEntry) ∧ (fullEntry.mask = fullMask))
    ∧ ((State.inService up = true) ∧ (State.readsServed up (pcOf 0) = true) ∧ (State.wqEntry up (0 / 32) = none) ∧
      (Store.at up.poison false (0 / 32) = false) ∧ (255 < 256) ∧ (BitVec.toNat (BitVec.ofNat 266 (2 ^ 255)) = 2 ^ 255))
    ∧ ((State.inService hbmData = true) ∧ (State.readsServed hbmData (pcOf 4096) = true) ∧ (State.wqEntry hbmData (4096 / 32) = none) ∧
      (Store.at hbmData.poison false (4096 / 32) = false) ∧ (264 < 265) ∧ (265 < 266) ∧
      (BitVec.toNat (BitVec.ofNat 266 (2 ^ 264 + 2 ^ 265)) = 2 ^ 264 + 2 ^ 265))
    ∧ ((State.inService hbmData = true) ∧ (5 ∈ hbmData.rereads) ∧ (Store.at hbmData.poison false 5 = false)) := by
  decide +kernel

theorem witness_HbmKeepsItsTime :
    ((State.inService up = true) ∧ ((State.pc up 0).sr = 0) ∧ ((State.pc up 0).since + State.interval up (0 / 32) ≤ up.cyc))
    ∧ ((State.inService owing = true) ∧ ((State.pc owing 0).sr = 0) ∧ ((State.pc owing 0).debt ≠ 0) ∧
      (Pc.mode (State.pc owing 0) = 1 → (State.pc owing 0).wq = []) ∧ (State.rereadWaits owing 0 = false) ∧
      ((State.pc owing 0).refreshEnd ≤ owing.cyc))
    ∧ ((State.inService warming = true) ∧
      (decide (85 < signedOf 8 (if 0 = 0 then State.fld warming KPR.THERM_STAT_HBM0_C else State.fld warming KPR.THERM_STAT_HBM1_C)) = true) ∧
      (State.fld warming (HBM.REFRESH_HOT 0) = b2n !true))
    ∧ ((State.inService cooling = true) ∧
      (decide (85 < signedOf 8 (if 0 = 0 then State.fld cooling KPR.THERM_STAT_HBM0_C else State.fld cooling KPR.THERM_STAT_HBM1_C)) = false) ∧
      (State.fld cooling (HBM.REFRESH_HOT 0) = b2n !false))
    ∧ ((State.inService up = true) ∧ (State.channelIdle up 0 = true))
    ∧ ((State.inService asleep = true) ∧ ((State.pc asleep (2 * 0)).sr = 2) ∧ (1 ≤ 1))
    ∧ ((State.inService lazyWrites = true) ∧ (State.readsServed lazyWrites 0 = true) ∧ (List.Nodup (List.map WqEntry.beat (State.pc lazyWrites 0).wq)) ∧
      (∀ e ∈ (State.pc lazyWrites 0).wq, List.length e.data = 32))
    ∧ ((State.inService lazyWrites = true) ∧ (State.readsServed lazyWrites 0 = true) ∧
      (List.find? (fun e => decide (e.beat = BitVec.toNat (262144 : BitVec 30))) (State.pc lazyWrites 0).wq = some shortEntry) ∧
      (shortEntry.mask ≠ fullMask) ∧ (Store.at lazyWrites.poison false (BitVec.toNat (262144 : BitVec 30)) = false) ∧
      (BitVec.toNat (262144 : BitVec 30) ∉ lazyWrites.rereads))
    ∧ ((State.inService poisonedMerge = true) ∧ (State.readsServed poisonedMerge 0 = true) ∧
      (List.find? (fun e => decide (e.beat = BitVec.toNat (262144 : BitVec 30))) (State.pc poisonedMerge 0).wq = some shortEntry) ∧
      (Store.at poisonedMerge.poison false (BitVec.toNat (262144 : BitVec 30)) = true)) := by
  decide +kernel

theorem witness_SoundFollows :
    ((State.inService up = true) ∧ (bitAt (State.fld up PDM.STAT_ABSENT) 0 = false))
    ∧ ((State.inService up = true) ∧ (Store.at up.audio.absent 0 0 + msCyc 1 ≤ up.cyc))
    ∧ ((State.inService (portRuns 1 false) = true) ∧ (State.tdm (portRuns 1 false) 0 = some tdmRun) ∧
      (State.fld (portRuns 1 false) (TDM.CFG_CLOCK 0) = 0 → State.atSample (portRuns 1 false) = true) ∧
      (State.fld (portRuns 1 false) (TDM.STAT_STATE 0) ≠ 2))
    ∧ ((State.inService masterRuns = true) ∧ (State.tdm masterRuns 0 = some tdmRun) ∧
      (State.fld masterRuns (TDM.CFG_CLOCK 0) = 0 → State.atSample masterRuns = true) ∧ (State.fld masterRuns (TDM.STAT_STATE 0) ≠ 2))
    ∧ ((State.inService stalledPort = true) ∧ ((State.tdm stalledPort 0).isSome = true) ∧ (State.fld stalledPort (TDM.STAT_STATE 0) = 2) ∧
      (State.fld stalledPort (TDM.CFG_CLOCK 0) = 0 → State.atSample stalledPort = true))
    ∧ ((State.inService (portRuns 1 false) = true) ∧ (State.tdm (portRuns 1 false) 0 = some tdmRun) ∧
      (State.fld (portRuns 1 false) (TDM.CFG_CLOCK 0) ≠ 0) ∧ (State.fld (portRuns 1 false) (TDM.STAT_STATE 0) ≠ 2) ∧
      (tdmRun.startAt + msCyc 1 ≤ (portRuns 1 false).cyc))
    ∧ ((State.inService (wordClock 2 0) = true) ∧ (State.fld (wordClock 2 0) AUDC.WCLK_CFG_ENABLE = 1))
    ∧ ((State.inService portStopped = true) ∧ (Safety.Open Path.pcie (Pg.tdm 0 + 16) portStopped) ∧
      (State.fld portStopped (PG_CTRL_ENABLE (Pg.tdm 0)) = 0) ∧
      (State.fld portStopped AUDC.CFG_RATE = 1 → State.fld portStopped (TDM.CFG_SLOTS 0) ≠ 4) ∧
      (State.fld portStopped (TDM.CFG_CLOCK 0) = 2 → State.fld portStopped AUDC.WCLK_CFG_RATE = (if State.fld portStopped AUDC.CFG_RATE = 1 then 3 else 1)))
    ∧ ((State.inService up = true) ∧ (Safety.Open Path.pcie (Pg.tdm 0 + 16) up)) := by
  refine ⟨?_, ?_, ?_, ?_, ?_, ?_, ?_⟩ <;> (try simp only [Safety.Open]) <;> decide +kernel

theorem witness_StepKeepsCanonicalForm :
    ((Memory.wf State.reset.hbm = true) ∧ (Memory.wf State.reset.gallery = true) ∧ (Memory.wf State.reset.engineCode = true) ∧
      (Memory.wf State.reset.timeCode = true) ∧ (Memory.wf State.reset.host = true) ∧ (Store.wf resetValue State.reset.regs = true) ∧
      (State.reset.attnGen < 2 ^ 32) ∧ ((match step State.reset with | .next _ => true | _ => false) = true)) := by
  decide +kernel

theorem witness_ResetIsColdAndCanonical :
    (((pageByIndex 0).isSome = true) ∧ ((pageByIndex 201).isSome = true)) := by
  decide +kernel

/-! ### Ill-formed commands: one for each check of WellFormed -/

theorem test_wf_resetNLow_zero : (Instr.resetNLow 0).wf = false := by decide
theorem test_wf_railCheck_main_volts_too_wide : (Instr.railCheck 4096 0 0 0).wf = false := by decide
theorem test_wf_railCheck_main_amps_too_wide : (Instr.railCheck 0 4096 0 0).wf = false := by decide
theorem test_wf_railCheck_aux_volts_too_wide : (Instr.railCheck 0 0 4096 0).wf = false := by decide
theorem test_wf_railCheck_aux_amps_too_wide : (Instr.railCheck 0 0 0 4096).wf = false := by decide
theorem test_wf_stageWriteBar2_empty : (Instr.stageWriteBar2 0 []).wf = false := by decide
theorem test_wf_stageWriteBar2_past_the_window : (Instr.stageWriteBar2 0xFFFFFFF [1, 2]).wf = false := by decide
theorem test_wf_stageWriteBar2_too_long : (Instr.stageWriteBar2 0 (List.replicate 4097 0)).wf = false := by decide +kernel
theorem test_wf_registerWrite_no_bytes : (Instr.registerWrite .pcie 0x1040 0 0 0 false).wf = false := by decide
theorem test_wf_registerWrite_too_long : (Instr.registerWrite .pcie 0x1040 0 4097 0 false).wf = false := by decide
theorem test_wf_bar0BadSizeRead_no_bytes : (Instr.bar0BadSizeRead 0x1040 0 false).wf = false := by decide
theorem test_wf_bar0BadSizeRead_too_long : (Instr.bar0BadSizeRead 0x1040 4097 false).wf = false := by decide
theorem test_wf_bar2Read_empty : (Instr.bar2Read 0 0 .okay).wf = false := by decide
theorem test_wf_bar2Read_past_the_window : (Instr.bar2Read 0xFFFFFFF 2 .okay).wf = false := by decide
theorem test_wf_bar2Write_empty : (Instr.bar2Write 0 [] .okay).wf = false := by decide
theorem test_wf_bar2Write_past_the_window : (Instr.bar2Write 0xFFFFFFF [1, 2] .okay).wf = false := by decide
theorem test_wf_bar4Read_empty : (Instr.bar4Read 0 0).wf = false := by decide
theorem test_wf_bar4Read_past_the_window : (Instr.bar4Read 0xFFFFF 2).wf = false := by decide
theorem test_wf_bar4Write_empty : (Instr.bar4Write 0 []).wf = false := by decide
theorem test_wf_bar4Write_past_the_window : (Instr.bar4Write 0xFFFFF [1, 2]).wf = false := by decide
theorem test_wf_uasynFrameAbort_no_bits : (Instr.uasynFrameAbort 0).wf = false := by decide
theorem test_wf_regWriteList_empty : (Instr.regWriteList [] none).wf = false := by decide
theorem test_wf_regReadList_empty : (Instr.regReadList [] none).wf = false := by decide
theorem test_wf_pcieLinkUp_rate_out_of_range : (Instr.pcieLinkUp 6 8).wf = false := by decide
theorem test_wf_pcieLinkUp_three_lanes : (Instr.pcieLinkUp 5 3).wf = false := by decide
theorem test_wf_frameReceive_empty_frame : (Instr.frameReceive 0 (frameOf 0 true)).wf = false := by decide
theorem test_wf_frameReceive_too_long : (Instr.frameReceive 0 (frameOf 16385 true)).wf = false := by decide
theorem test_wf_frameReceive_too_many_tags : (Instr.frameReceive 0 { frameOf 64 true with tags := 9 }).wf = false := by decide
theorem test_wf_ingPacket_payload_type_too_wide : (Instr.ingPacket 0 .a { vpkt 6 7 with pt := 128 }).wf = false := by decide
theorem test_wf_ingPacket_timestamp_too_wide : (Instr.ingPacket 0 .a { vpkt 6 7 with rtp := 4294967296 }).wf = false := by decide
theorem test_wf_ingPacket_sequence_too_wide : (Instr.ingPacket 0 .a (vpkt 4294967296 7)).wf = false := by decide
theorem test_wf_ingPacket_line_too_wide : (Instr.ingPacket 0 .a (vpkt 6 32768)).wf = false := by decide
theorem test_wf_scanAbort_fed_past_the_memory : (Instr.scanAbort .pcie 34359738368 false).wf = false := by decide
theorem test_wf_tdmFrameStart_more_bits_than_clocks : (Instr.tdmFrameStart 0 1 [true, false, true]).wf = false := by decide
theorem test_wf_thermalSample : (Instr.thermalSample (Vector.replicate 16 0) 0 0).wf = true := by decide

/-! ### The opcode table gives no row any bits -/

theorem test_no_word_spells_a_command : decodeTableWord 16 0x1234 = none := by decide

/-! ### Values the spec prints -/

/-- The bytes of "123456789". -/
def digits : List Byte := [0x31, 0x32, 0x33, 0x34, 0x35, 0x36, 0x37, 0x38, 0x39]

/-- Source: the VALUE column of R380's table, POLY 0 and 1. -/
theorem test_crc32_values : crcFeed 0 digits (crcInit 0) = 0x340BC6D9 ∧ crcFeed 1 digits (crcInit 1) = 0x1CF96D7C := by decide +kernel

/-- Source: the VALUE column of R380's table, POLY 2 and 3. -/
theorem test_crc16_and_crc64_values :
    crcFeed 2 digits (crcInit 2) = 0x29B1 ∧ crcFeed 3 digits (crcInit 3) = 0x6C40DF5F0B497347 := by decide +kernel

/-- Source: section 04, the Uasyn example: the request 0x11, 0x00, 0x11, 0x00 has the CRC-8 0x33. -/
theorem test_uasyn_crc : crc8 [0x11, 0x00, 0x11, 0x00] = 0x33 := by decide +kernel

/-- Source: R475: PG_IDENT of STC3, at BAR0 0x704000. -/
theorem test_pg_ident_of_stc3 : State.reset.reg 0x704000 = 0x000707020301 := by decide +kernel

/-- Source: section 22: DIR.ENTRY170, at BAR0 0x590. -/
theorem test_directory_entry_170 : State.reset.reg 0x590 = 0x001704070203 := by decide +kernel

/-- Source: section 22: the page masks of the PCIe port from READY on. -/
theorem test_page_masks_of_the_pcie_port :
    (setMasks up).reg (pageMask 28 0).key = 0xFFFFFFFFFFDE ∧ (setMasks up).reg (pageMask 28 4).key = 0x3FF := by decide +kernel

/-- Source: section 15, "A region's seal": bytes 0 to 25 of the seal of region 224. -/
theorem test_seal_of_region_224 :
    (sealBytes 0x30E0 0x00012C0A 0x012B 0 (1750000000 * Config.unitsPerSec + 25000000 * Config.unitsPerNs) 12564 0).take 26
      = [0x01, 0x00, 0x30, 0xE0, 0x00, 0x01, 0x2C, 0x0A, 0x01, 0x2B, 0x00, 0x00, 0x00, 0x00, 0x68, 0x4E, 0xE1, 0x80,
         0x01, 0x7D, 0x78, 0x40, 0x00, 0x00, 0x31, 0x14] := by decide +kernel

/-! ### Single steps -/

/-- Source: R42: of equal hottest sensors the lowest numbered one is shown. -/
theorem test_thermalSample_takes_the_lowest_of_equals :
    (match exec (.thermalSample ((Vector.replicate 16 20).set 3 90 |>.set 9 90) 30 86) up with
      | .next t => (t.fld KPR.THERM_STAT_DIE_MAX_C, t.fld KPR.THERM_STAT_SITE, t.fld KPR.THERM_STAT_HBM_HOT)
      | _ => (0, 0, 0)) = (90, 3, 1) := by decide +kernel

/-- Source: R36: a low level of 99 ns changes nothing. -/
theorem test_resetNLow_short_pulse : (match exec (.resetNLow 99) up with
    | .next t => decide (t.pins.resetN = true ∧ t.ready = .ready)
    | _ => false) = true := by decide +kernel

/-- A command at the front of the queue runs first and leaves the queue. -/
theorem test_step_takes_the_front : (match step { dark with pending := [.vinAuxRise, .vinMainRise] } with
    | .next t => decide (t.pending = [.vinMainRise] ∧ t.pwr.aux = true ∧ t.pwr.main = false)
    | _ => false) = true := by decide +kernel


end Sys2Proof.Tests
end

