-- ==== Sys2Proof/Proofs/Attestation.lean ====
section
/-!
PROOFS. Proofs/Attestation.lean: how a command over a path ends as its effect left the state, what each of SEC's attestation and fuse reading
operations leaves, and the statement on them (R78, R81, R87 to R89).
-/
namespace Sys2Proof.Machine

/-! ### The state at the end of a command -/

/-- A command from `s` whose effect left `u` ends in `t`: the effect's state, but for what the end of every command moves, the attention
generation, the replies and the free values' counter (R92, R106), with the queue of `s`. -/
def EndsAs (s u t : State) : Prop :=
  t = { u with attnGen := t.attnGen, replies := t.replies, free := t.free, pending := s.pending }

section
variable {s u t : State}

theorem EndsAs.regs (h : EndsAs s u t) : t.regs = u.regs := by rw [h]

theorem EndsAs.sec (h : EndsAs s u t) : t.sec = u.sec := by rw [h]

theorem EndsAs.fld (h : EndsAs s u t) (f : Fld) : t.fld f = u.fld f := State.fld_congr h.regs f

theorem EndsAs.regsKept (h : EndsAs s u t) {keys : List Nat} (hu : Safety.RegsKept s u keys) : Safety.RegsKept s t keys :=
  fun key hk => (State.reg_congr h.regs key).trans (hu key hk)

theorem EndsAs.memoryKept (h : EndsAs s u t) (hu : Safety.MemoryKept s u) : Safety.MemoryKept s t := by
  obtain ⟨hhbm, hgal, heng, htime, hhost, hotp, -⟩ := hu
  rw [h]
  exact ⟨hhbm, hgal, heng, htime, hhost, hotp, rfl⟩

/-- A command of one cycle that takes no path ends as its effect left the state. -/
theorem finish_endsAs (s u : State) : Safety.Ends (finish s u) (EndsAs s u) := ⟨finished s u, rfl, rfl⟩

/-- An accepted write of a register that R86 does not measure ends as its behaviour left the state. -/
theorem write_endsAs {path : Path} {addr : Nat} (h : Safety.Open path addr s) (data : Reg) (op : RegOp) (hok : (op s).2 = .ok) :
    Safety.Ends (finishWrite path s (hostWrite path addr data true false op s)) (EndsAs s (op s).1) := by
  have happ : applied addr data false op s = op s := by simp [applied]
  obtain ⟨t, ht, he⟩ := finishWrite_next path s (op s)
  exact ⟨t, by rw [hostWrite_open h data false op hok, happ, ht], he⟩

/-! ### The Reply Status Word of a read -/

/-- The RSW is a function of the registers, READY and the attention generation (R90). -/
theorem State.rsw_congr (hregs : s.regs = t.regs) (hready : s.ready = t.ready) (hgen : s.attnGen = t.attnGen) (c : Code) :
    s.rsw c = t.rsw c := by
  have hset : s.pendingSet = t.pendingSet := State.pendingSet_congr hregs hready
  simp [State.rsw, State.attnClass, State.reg_congr hregs, hset, hready, hgen]

/-- The reply to a read carries the RSW of the state that the read ends in, with the read's CODE (R90). -/
theorem finishRead_rsw {path : Path} (hr : s.reaches path = true) (r : State × Reg × Code) :
    Safety.Ends (finishRead path s r) (fun t => t.replies.rsw = some (t.rsw r.2.2)) := by
  have hcond : ¬ s.reaches path = false := by simp [hr]
  unfold finishRead done
  rw [if_neg hcond]
  cases path <;> exact ⟨_, rfl, congrArg some (State.rsw_congr rfl rfl rfl _)⟩

/-- A kept CODE takes the place of OK alone (R101). -/
theorem deliverCode_of_ne_ok {addr : Nat} {r : State × Reg × Code} (h : r.2.2 ≠ .ok) : deliverCode addr r = r := by
  simp [deliverCode, h]

/-- A read that passes every gate ends as the register's own behaviour left the state, with its data in the reply, and its CODE in the RSW
where that is other than OK. -/
theorem read_endsAs {path : Path} {addr : Nat} (h : Safety.OpenRead path addr s) (run : ReadOp) :
    Safety.Ends (finishRead path s (hostRead path addr true run s)) (fun t =>
      EndsAs s (run s).1 t ∧ t.replies.data = (run s).2.1 ∧ ((run s).2.2 ≠ .ok → t.replies.rsw = some (t.rsw (run s).2.2))) := by
  obtain ⟨t, ht, hdata, he⟩ := read_ends h run
  refine ⟨t, ht, he, hdata, fun hne => ?_⟩
  have hrun : hostRead path addr true run s = run s := by
    rcases hostRead_open h run with hw | hw
    · exact hw
    · exact hw.trans (deliverCode_of_ne_ok hne)
  obtain ⟨t', ht', hrsw⟩ := finishRead_rsw h.1 (run s)
  rw [hrun, ht'] at ht
  cases ht
  exact hrsw

/-! ### Registers kept -/

/-- A field written of a listed register keeps the others. -/
theorem regsKept_setFld {keys : List Nat} (h : Safety.RegsKept s u keys) {f : Fld} (hf : f.key ∈ keys) (v : Nat) :
    Safety.RegsKept s (u.setFld f v) keys := fun key hk =>
  (State.reg_setFld_ne u f v key (fun e => hk (e ▸ hf))).trans (h key hk)

end

/-! ### Attestation (R87 to R89) -/

section
variable (s : State)

/-- SEC with `j` as the report under way. -/
def State.withJob (j : AttJob) : State := { s with sec := { s.sec with job := some j } }

/-- What GO latches (R87, R88). -/
def State.attLatch : AttJob :=
  ⟨((List.range 8).map (fun i => leBytes 4 (s.fld (SEC.ATT_NONCE_BYTES i)))).flatten, secOf s.ctr, nsOf s.ctr, s.sec.measured, s.sec.count⟩

/-- In service and with no report under way, GO is accepted, latches and shows BUSY (R87). -/
theorem attGo_of_idle (hi : s.inService = true) (hj : s.sec.job = none) :
    attGo s = (((s.withJob s.attLatch).setFld SEC.ATT_STAT_VALID 0).setFld SEC.ATT_STAT_BUSY 1, .ok) := by
  unfold attGo
  rw [if_neg (by simp [hi]), if_neg (by simp [hj])]
  rfl

/-- The job's report stands in SEC, signed with a salt, and the free values that gave the salt are spent (R87, R88). -/
def State.reported (j : AttJob) (salt : List Byte) : State :=
  { s with
    free := s.free + 32
    sec := { s.sec with
      job := none
      report := s.reportBody j ++ rsaSign s.idModulus s.idPrivate (sha256 (s.reportBody j)) salt } }

/-- In service the job under way ends with its report, signed with some salt of 32 bytes; VALID is set and GEN counts (R87, R88). -/
theorem execAttReportDone_of_job {j : AttJob} (hj : s.sec.job = some j) (hi : s.inService = true) :
    ∃ salt : List Byte, salt.length = 32 ∧ execAttReportDone s
      = finish s ((((s.reported j salt).setFld SEC.ATT_STAT_VALID 1).setFld SEC.ATT_STAT_BUSY 0).wrapFld SEC.ATT_STAT_GEN) := by
  refine ⟨(s.freeBytes 32).1, by simp [State.freeBytes], ?_⟩
  unfold execAttReportDone
  simp only [hj, hi, Bool.true_eq_false, if_false]
  rfl

/-- With a valid report, a read of ATT_DATA below word 160 answers the word at ATT_INDEX, which increments (R89). -/
theorem attData_of_valid (hv : s.fld SEC.ATT_STAT_VALID = 1) (hlt : s.fld SEC.ATT_INDEX_INDEX < 160) :
    attData s = (s.setFld SEC.ATT_INDEX_INDEX (s.fld SEC.ATT_INDEX_INDEX + 1),
      BitVec.ofNat 48 (leNat ((s.sec.report.drop (4 * s.fld SEC.ATT_INDEX_INDEX)).take 4)), .ok) := by
  simp [attData, hv, hlt]

/-! ### Fuse reads (R78, R81) -/

/-- A read of OTP_DATA changes nothing but the index, which it advances. -/
theorem otpData_state : (otpData s).1 = s.setFld SEC.OTP_INDEX_INDEX (s.fld SEC.OTP_INDEX_INDEX + 1) := by
  unfold otpData; dsimp only; split <;> rfl

/-- A read of OTP_DATA answers the word at INDEX, zero for those of ID_PRIV. -/
theorem otpData_data : (otpData s).2.1
    = if 320 ≤ s.fld SEC.OTP_INDEX_INDEX then 0 else BitVec.ofNat 48 (s.otpWord (s.fld SEC.OTP_INDEX_INDEX)) := by
  unfold otpData; dsimp only; split <;> rfl

/-- The words of ID_PRIV answer CODE PERMISSION (R81). -/
theorem otpData_code_of_idPriv (h : 320 ≤ s.fld SEC.OTP_INDEX_INDEX) : (otpData s).2.2 = .permission := by
  simp [otpData, h]

end

/-! ### The commands -/

section
variable {s : State}

/-- R87: GO latches the nonce, the time and the measurement, and BUSY replaces VALID. -/
theorem execAttGo_ends {path : Path} (h : Safety.Open path 0x30E0 s) (hi : s.inService = true) (hj : s.sec.job = none) :
    Safety.Ends (execAttGo path s) (fun t => t.sec.job = some s.attLatch ∧ t.fld SEC.ATT_STAT_VALID = 0 ∧ t.fld SEC.ATT_STAT_BUSY = 1
      ∧ Safety.MemoryKept s t ∧ Safety.RegsKept s t [0x30E8]) := by
  have hgo := attGo_of_idle s hi hj
  obtain ⟨t, ht, he⟩ := write_endsAs h 1 attGo (by rw [hgo])
  rw [hgo] at he
  refine ⟨t, ht, by rw [he.sec]; rfl, ?_, ?_, ?_, ?_⟩
  · rw [he.fld, State.fld_setFld_ne _ _ _ _ (by decide) (by decide), State.fld_setFld_self _ _ _ (by decide)]; rfl
  · rw [he.fld, State.fld_setFld_self _ _ _ (by decide)]; rfl
  · exact he.memoryKept ⟨rfl, rfl, rfl, rfl, rfl, rfl, rfl⟩
  · exact he.regsKept (regsKept_setFld (regsKept_setFld (fun _ _ => rfl) (by decide) _) (by decide) _)

/-- R87, R88: the report is the 256 bytes of R88 and their signature; VALID replaces BUSY and GEN counts. -/
theorem execAttReportDone_ends {j : AttJob} (hj : s.sec.job = some j) (hi : s.inService = true) :
    Safety.Ends (execAttReportDone s) (fun t => t.sec.job = none ∧ t.fld SEC.ATT_STAT_VALID = 1 ∧ t.fld SEC.ATT_STAT_BUSY = 0
      ∧ t.fld SEC.ATT_STAT_GEN = (s.fld SEC.ATT_STAT_GEN + 1) % 256
      ∧ (∃ salt : List Byte, salt.length = 32
          ∧ t.sec.report = s.reportBody j ++ rsaSign s.idModulus s.idPrivate (sha256 (s.reportBody j)) salt)
      ∧ Safety.MemoryKept s t ∧ Safety.RegsKept s t [0x30E8]) := by
  obtain ⟨salt, hsalt, hdone⟩ := execAttReportDone_of_job s hj hi
  obtain ⟨t, ht, he⟩ := finish_endsAs s
    ((((s.reported j salt).setFld SEC.ATT_STAT_VALID 1).setFld SEC.ATT_STAT_BUSY 0).wrapFld SEC.ATT_STAT_GEN)
  refine ⟨t, hdone.trans ht, by rw [he.sec]; rfl, ?_, ?_, ?_, ⟨salt, hsalt, by rw [he.sec]; rfl⟩, ?_, ?_⟩
  · rw [he.fld, State.wrapFld, State.fld_setFld_ne _ _ _ _ (by decide) (by decide), State.fld_setFld_ne _ _ _ _ (by decide) (by decide),
      State.fld_setFld_self _ _ _ (by decide)]; rfl
  · rw [he.fld, State.wrapFld, State.fld_setFld_ne _ _ _ _ (by decide) (by decide), State.fld_setFld_self _ _ _ (by decide)]; rfl
  · rw [he.fld, State.fld_wrapFld_self _ _ _ (by decide), State.fld_setFld_ne _ _ _ _ (by decide) (by decide),
      State.fld_setFld_ne _ _ _ _ (by decide) (by decide)]; rfl
  · exact he.memoryKept ⟨rfl, rfl, rfl, rfl, rfl, rfl, rfl⟩
  · exact he.regsKept
      (regsKept_setFld (regsKept_setFld (regsKept_setFld (fun _ _ => rfl) (by decide) _) (by decide) _) (by decide) _)

/-- R89: a read of ATT_DATA answers the report's word at ATT_INDEX and advances it. -/
theorem execAttDataRead_ends {path : Path} (h : Safety.OpenRead path 0x30F8 s) (hv : s.fld SEC.ATT_STAT_VALID = 1)
    (hlt : s.fld SEC.ATT_INDEX_INDEX < 160) :
    Safety.Ends (execAttDataRead path s) (fun t =>
      t.replies.data = BitVec.ofNat 48 (leNat ((s.sec.report.drop (4 * s.fld SEC.ATT_INDEX_INDEX)).take 4))
        ∧ t.fld SEC.ATT_INDEX_INDEX = s.fld SEC.ATT_INDEX_INDEX + 1 ∧ Safety.MemoryKept s t ∧ Safety.RegsKept s t [0x30F0]) := by
  have hread := attData_of_valid s hv hlt
  obtain ⟨t, ht, he, hdata, -⟩ := read_endsAs h attData
  rw [hread] at he hdata
  refine ⟨t, ht, hdata, ?_, ?_, ?_⟩
  · have hfits : s.fld SEC.ATT_INDEX_INDEX + 1 < 2 ^ SEC.ATT_INDEX_INDEX.w := Nat.lt_of_lt_of_le (Nat.succ_lt_succ hlt) (by decide)
    rw [he.fld, State.fld_setFld_self _ _ _ (by decide), Nat.mod_eq_of_lt hfits]
  · exact he.memoryKept ⟨rfl, rfl, rfl, rfl, rfl, rfl, rfl⟩
  · exact he.regsKept (regsKept_setFld (fun _ _ => rfl) (by decide) _)

/-- R78, R81: a read of OTP_DATA answers the word at INDEX and advances it; the words of ID_PRIV read zero with CODE PERMISSION and freeze
nothing. -/
theorem execOtpDataRead_ends {path : Path} (h : Safety.OpenRead path 0x3048 s) :
    Safety.Ends (execOtpDataRead path s) (fun t =>
      t.replies.data = (if 320 ≤ s.fld SEC.OTP_INDEX_INDEX then 0 else BitVec.ofNat 48 (s.otpWord (s.fld SEC.OTP_INDEX_INDEX)))
        ∧ (320 ≤ s.fld SEC.OTP_INDEX_INDEX →
            t.replies.rsw = some (t.rsw .permission) ∧ t.fld KPR.FRZ_STAT_FROZEN = s.fld KPR.FRZ_STAT_FROZEN)
        ∧ t.fld SEC.OTP_INDEX_INDEX = (s.fld SEC.OTP_INDEX_INDEX + 1) % 512 ∧ Safety.MemoryKept s t ∧ Safety.RegsKept s t [0x3040]) := by
  obtain ⟨t, ht, he, hdata, hrsw⟩ := read_endsAs h otpData
  rw [otpData_state] at he
  refine ⟨t, ht, hdata.trans (otpData_data s), fun hpriv => ⟨?_, ?_⟩, ?_, ?_, ?_⟩
  · have hcode := otpData_code_of_idPriv s hpriv
    rw [hrsw (by simp [hcode]), hcode]
  · rw [he.fld, State.fld_setFld_key _ _ _ _ (by decide)]
  · rw [he.fld, State.fld_setFld_self _ _ _ (by decide)]; rfl
  · exact he.memoryKept ⟨rfl, rfl, rfl, rfl, rfl, rfl, rfl⟩
  · exact he.regsKept (regsKept_setFld (fun _ _ => rfl) (by decide) _)

end

/-- Settles O17: each of the four commands ends as its register's own behaviour leaves the state. -/
theorem attestationAndFuseReads : Obligations.AttestationAndFuseReads := by
  unfold Obligations.AttestationAndFuseReads
  intro s
  refine ⟨fun path h hi hj => ?_, fun j hj hi => ?_, fun path h hv hlt => ?_, fun path h => ?_⟩
  · exact execAttGo_ends h hi hj
  · exact execAttReportDone_ends hj hi
  · exact execAttDataRead_ends h hv hlt
  · exact execOtpDataRead_ends h

end Sys2Proof.Machine
end

section
/-!
PROOFS. Proofs/EventClear.lean: which bits of PG_EVENT stand after a W1C write, and the statement on it (R109, R111).
-/
namespace Sys2Proof.Machine

/-! ### A number formed of the bits that a predicate names -/

/-- Adding to 0 the powers of two of the indices below `n` that `p` names sets the bits of those indices. -/
theorem bitAt_foldl_range (p : Nat → Bool) (n j : Nat) :
    bitAt ((List.range n).foldl (fun a k => if p k then a + 2 ^ k else a) 0) j = (decide (j < n) && p j) := by
  induction n generalizing j with
  | zero => simp [bitAt]
  | succ n ih =>
    rw [List.range_succ, List.foldl_append, List.foldl_cons, List.foldl_nil]
    generalize (List.range n).foldl (fun a k => if p k then a + 2 ^ k else a) 0 = x at ih ⊢
    have hbit : bitAt (if p n = true then x + 2 ^ n else x) j = (bitAt x j || (decide (j = n) && p j)) := by
      by_cases hp : p n = true
      · have hor : x + 2 ^ n = orBit x n := by simp [orBit, ih]
        rw [if_pos hp, hor, bitAt_orBit]
        by_cases hj : j = n <;> simp [hj, hp]
      · rw [if_neg hp]
        by_cases hj : j = n <;> simp [hj, hp]
    rw [hbit, ih, ← Bool.and_or_distrib_right, ← Bool.decide_or, decide_eq_decide.2 Nat.lt_succ_iff_lt_or_eq.symm]

theorem bitAt_mod_two_pow (x w k : Nat) (hk : k < w) : bitAt (x % 2 ^ w) k = bitAt x k := by
  rw [bitAt_eq_testBit, bitAt_eq_testBit, Nat.testBit_mod_two_pow, decide_eq_true hk, Bool.true_and]

theorem bitAt_toNat {w : Nat} (v : BitVec w) (k : Nat) : bitAt v.toNat k = v.getLsbD k := by
  rw [bitAt_eq_testBit, BitVec.testBit_toNat]

/-! ### The W1C write of PG_EVENT -/

/-- Of the events that stand, those stay that the write does not name or that recur in the cycle (R111); an event that did not stand is not set
by its recurrence here (log entry 24). -/
theorem bitAt_eventClear (b bits recurs : Nat) (s : State) {k : Nat} (hk : k < 16) :
    bitAt ((eventClear b bits recurs s).fld (PG_EVENT_EVENTS b)) k
      = (bitAt (s.fld (PG_EVENT_EVENTS b)) k && (!bitAt bits k || bitAt recurs k)) := by
  unfold eventClear
  rw [State.fld_setFld_self _ _ _ (by show 0 + 16 ≤ 48; decide), bitAt_mod_two_pow _ (PG_EVENT_EVENTS b).w _ hk,
    bitAt_foldl_range, decide_eq_true hk, Bool.true_and, Bool.and_or_distrib_left]

/-- A W1C write of PG_EVENT changes registers alone. -/
theorem eventClear_regs (b bits recurs : Nat) (s : State) :
    eventClear b bits recurs s = { s with regs := (eventClear b bits recurs s).regs } := rfl

/-- Of the registers it changes PG_EVENT alone. -/
theorem eventClear_regsKept (b bits recurs : Nat) (s : State) : Safety.RegsKept s (eventClear b bits recurs s) [b + 0x20] :=
  regsKept_setFld (fun _ _ => rfl) (List.mem_singleton.2 rfl) _

/-- An EVENT_CLEAR that passes every gate ends as the W1C write of its page leaves the state. -/
theorem execEventClear_endsAs {s : State} {path : Path} {page : Fin 202} (h : Safety.Open path (baseOfIndex page.val + 0x20) s)
    (bits recurs : BitVec 16) :
    Safety.Ends (execEventClear path page bits recurs s) (EndsAs s (eventClear (baseOfIndex page.val) bits.toNat recurs.toNat s)) :=
  write_endsAs h _ _ rfl

/-- Settles O19: the command ends as the W1C write leaves PG_EVENT, bit by bit, and nothing else of the registers changes. -/
theorem eventClearClearsNamedBits : Obligations.EventClearClearsNamedBits := by
  unfold Obligations.EventClearClearsNamedBits
  intro s path page bits recurs hopen
  obtain ⟨t, ht, he⟩ := execEventClear_endsAs hopen bits recurs
  refine ⟨t, ht, fun k hk => ?_, ?_, he.regsKept (eventClear_regsKept _ _ _ s)⟩
  · rw [he.fld, bitAt_eventClear _ _ _ _ hk, bitAt_toNat, bitAt_toNat]
  · rw [eventClear_regs] at he
    rw [he]

end Sys2Proof.Machine
end

section
/-!
PROOFS. Proofs/NotedWrites.lean: how a write that passes every gate ends whatever its CODE, and what the recording of a CODE other than OK
changes (R90, R101).
-/
namespace Sys2Proof.Machine

/-- What a path makes of a register's answer to a write: the PCIe port and the command rings record and keep a CODE other than OK (R101). -/
def noted (path : Path) (addr : Nat) (r : State × Code) : State × Code :=
  match path with
  | .pcie => (noteCode addr r.2 r.1, r.2)
  | .ring => (noteCode addr r.2 r.1, r.2)
  | .uasyn => r
  | .core => r

section
variable {path : Path} {addr : Nat} {s : State}

/-- A write that passes every gate is the register's own behaviour, noted by its path. SPAN_REQ apart, whose CODE Uasyn keeps too (R20). -/
theorem hostWrite_eq_noted (h : Safety.Open path addr s) (hspan : addr ≠ 0x700040) (data : Reg) (m : Bool) (op : RegOp) :
    hostWrite path addr data true m op s = noted path addr (applied addr data m op s) := by
  cases path
  case pcie =>
    obtain ⟨hr, hg⟩ := h
    by_cases hk : baseOf addr = Pg.kpr
    · simp [hostWrite, pcieWrite, noted, hr, hk]
    · obtain ⟨hf, hans, hsv⟩ := hg.resolve_left hk
      have hans : ¬(s.answers (baseOf addr) = false ∧ s.inService = false) := by rintro ⟨ha, hi⟩; simp [ha, hi] at hans
      have hin : ¬(s.inService = true ∧ s.inReset 28 = true) := by rintro ⟨hi, hx⟩; simp [(hsv hi).1] at hx
      have hout : ¬(s.inService = true ∧ (true && !s.permits 28 true (.page addr)) = true) := by
        rintro ⟨hi, hx⟩; simp [(hsv hi).2] at hx
      unfold hostWrite pcieWrite
      dsimp only
      rw [if_neg (by simp [hr]), if_neg hk, if_neg (by simp [hf]), if_neg hans, if_neg hin, if_neg (by simp), if_neg hout]
      rfl
  case uasyn =>
    obtain ⟨hr, hans, hsv⟩ := h
    have hans : ¬(baseOf addr ≠ Pg.kpr ∧ s.answers (baseOf addr) = false ∧ s.inService = false) := by
      rintro ⟨hk, ha, hi⟩; simp [hk, ha, hi] at hans
    have hout : ¬(s.inService = true ∧ (baseOf addr = Pg.dir ∨ baseOf addr = Pg.fab)) := by
      rintro ⟨hi, hb⟩; simp [(hsv hi).1, (hsv hi).2] at hb
    unfold hostWrite uasynPathWrite
    dsimp only
    rw [if_neg (by simp [hr]), if_neg hans, if_neg (by simp), if_neg hout, if_neg (by simp [hspan])]
    rfl
  case ring =>
    obtain ⟨hi, hf, hg⟩ := h
    by_cases hk : baseOf addr = Pg.kpr
    · simp [hostWrite, ringWrite, noted, hi, hf, hk]
    · obtain ⟨hx, hp⟩ := hg.resolve_left hk
      simp [hostWrite, ringWrite, noted, hi, hf, hk, hx, hp]
  case core =>
    obtain ⟨hi, hf, hx, hk, hp⟩ := h
    simp [hostWrite, coreWrite, noted, hi, hf, hx, hk, hp]

/-- The Uasyn reply to a write carries the RSW of the state that the write ends in, with the write's CODE (R90, R106). -/
theorem finishWrite_rsw (hr : s.reaches .uasyn = true) (r : State × Code) :
    Safety.Ends (finishWrite .uasyn s r) (fun t => t.replies.rsw = some (t.rsw r.2)) := by
  have hdone : finishWrite .uasyn s r = done s (answerAccess 2 r.2 0 (bump s r.1)) := congrArg (done s) (if_pos hr)
  exact ⟨_, hdone, congrArg some (State.rsw_congr rfl rfl rfl _)⟩

/-- A write that passes every gate and is not measured ends as its behaviour left the state, its CODE noted, and given in the RSW over Uasyn. -/
theorem write_endsAs_noted (h : Safety.Open path addr s) (hspan : addr ≠ 0x700040) (data : Reg) (m : Bool) (op : RegOp)
    (hm : applied addr data m op s = op s) :
    Safety.Ends (finishWrite path s (hostWrite path addr data true m op s)) (fun t =>
      EndsAs s (noted path addr (op s)).1 t ∧ (path = .uasyn → t.replies.rsw = some (t.rsw (op s).2))) := by
  rw [hostWrite_eq_noted h hspan, hm]
  obtain ⟨t, ht, he⟩ := finishWrite_next path s (noted path addr (op s))
  refine ⟨t, ht, he, ?_⟩
  rintro rfl
  obtain ⟨t', ht', hrsw⟩ := finishWrite_rsw h.1 (noted .uasyn addr (op s))
  rw [ht'] at ht
  cases ht
  exact hrsw

end

/-! ### What the recording of a CODE changes -/

section
variable (path : Path) (addr : Nat) (c : Code) (s : State)

/-- Recording a CODE changes registers and replies alone. -/
theorem noteCode_eq : noteCode addr c s = { s with regs := (noteCode addr c s).regs, replies := (noteCode addr c s).replies } := by
  unfold noteCode; split <;> rfl

/-- Of the registers it changes the page's PG_STAT alone. -/
theorem noteCode_reg_ne {key : Nat} (hk : key ≠ baseOf addr + 0x18) : (noteCode addr c s).reg key = s.reg key := by
  unfold noteCode
  split
  · rfl
  · exact (State.reg_setFld_ne _ _ _ _ hk).trans (State.reg_setFld_ne _ _ _ _ hk)

/-- A CODE other than OK stands in PG_STAT.WR_CODE of the page (R101). -/
theorem noteCode_wrCode {c : Code} (hc : c ≠ .ok) (hp : (pageOf addr).isSome = true) :
    (noteCode addr c s).fld (PG_STAT_WR_CODE (baseOf addr)) = c.num := by
  have hlt : c.num < 2 ^ 4 := by cases c <;> decide
  have hnote : ¬(c = .ok ∨ (pageOf addr).isNone) := by
    rintro (h | h)
    · exact hc h
    · rw [Option.isNone_iff_eq_none.1 h] at hp; exact absurd hp (by decide)
  have hstat : (noteCode addr c s).fld (PG_STAT_WR_CODE (baseOf addr))
      = ((s.setFld (PG_STAT_WR_CODE (baseOf addr)) c.num).setFld (PG_STAT_WR_OFFSET (baseOf addr)) (addr % 0x1000 / 8)).fld
          (PG_STAT_WR_CODE (baseOf addr)) := by
    unfold noteCode; rw [if_neg hnote]; rfl
  rw [hstat, State.fld_setFld_ne _ _ _ _ (by show 3 + 9 ≤ 48; decide) (.inr (.inl (by show 3 + 9 ≤ 12; decide))),
    State.fld_setFld_self _ _ _ (by show 12 + 4 ≤ 48; decide)]
  exact Nat.mod_eq_of_lt hlt

/-- A CODE of OK is not recorded. -/
theorem noted_ok : noted path addr (s, .ok) = (s, .ok) := by
  cases path <;> simp [noted, noteCode]

/-- Noting an answer changes registers and replies alone. -/
theorem noted_eq (r : State × Code) :
    (noted path addr r).1 = { r.1 with regs := (noted path addr r).1.regs, replies := (noted path addr r).1.replies } := by
  cases path
  case pcie => exact noteCode_eq addr r.2 r.1
  case ring => exact noteCode_eq addr r.2 r.1
  case uasyn => rfl
  case core => rfl

theorem noted_shadow (r : State × Code) : (noted path addr r).1.shadow = r.1.shadow := by rw [noted_eq]

theorem noted_ports (r : State × Code) : (noted path addr r).1.ports = r.1.ports := by rw [noted_eq]

theorem noted_memoryKept {r : State × Code} (h : Safety.MemoryKept s r.1) : Safety.MemoryKept s (noted path addr r).1 := by
  rw [noted_eq]; exact h

/-- Of the registers it changes the page's PG_STAT alone. -/
theorem noted_regsKept (r : State × Code) : Safety.RegsKept r.1 (noted path addr r).1 [baseOf addr + 0x18] := by
  intro key hk
  have hne : key ≠ baseOf addr + 0x18 := fun e => hk (List.mem_singleton.2 e)
  cases path
  case pcie => exact noteCode_reg_ne addr r.2 r.1 hne
  case ring => exact noteCode_reg_ne addr r.2 r.1 hne
  case uasyn => rfl
  case core => rfl

/-- A field off PG_STAT reads as the register's behaviour left it. -/
theorem noted_fld_ne (r : State × Code) {f : Fld} (hf : f.key ≠ baseOf addr + 0x18) : (noted path addr r).1.fld f = r.1.fld f :=
  congrArg (fun v => bitsOf v f.lo f.w) (noted_regsKept path addr r f.key (fun h => hf (List.mem_singleton.1 h)))

end

end Sys2Proof.Machine
end

section
/-!
PROOFS. Proofs/Gates.lean: what GATEn shows of a port's lists, what the start and the abort of a pending list leave, and how the commands on
gate lists end (R401, R403, R404).
-/
namespace Sys2Proof.Machine

/-! ### Registers alone -/

/-- `u` differs from `s` in its registers alone. -/
def RegsOnly (s u : State) : Prop := u = { s with regs := u.regs }

section
variable {s u : State}

theorem RegsOnly.refl (s : State) : RegsOnly s s := rfl

theorem RegsOnly.setFld (h : RegsOnly s u) (f : Fld) (v : Nat) : RegsOnly s (u.setFld f v) := by
  have hset := congrArg (fun w : State => ({ w with regs := (u.setFld f v).regs } : State)) h
  exact hset

theorem RegsOnly.raise (h : RegsOnly s u) (b k : Nat) : RegsOnly s (u.raise b k) := h.setFld _ _

theorem RegsOnly.ports (h : RegsOnly s u) : u.ports = s.ports := by rw [h]

theorem RegsOnly.memoryKept (h : RegsOnly s u) : Safety.MemoryKept s u := by
  rw [h]
  exact ⟨rfl, rfl, rfl, rfl, rfl, rfl, rfl⟩

end

/-! ### A port's record -/

section
variable (s : State) (x : Nat)

@[simp] theorem State.port_setPort_self (p : PortTx) : (s.setPort x p).port x = p := Store.at_put_self _ _ _ _

theorem State.port_setPort_ne {y : Nat} (p : PortTx) (h : y ≠ x) : (s.setPort x p).port y = s.port y := Store.at_put_ne _ _ _ h

/-- The records of two states with the same ports are the same. -/
theorem State.port_congr {s t : State} (h : s.ports = t.ports) (y : Nat) : s.port y = t.port y := by simp [State.port, h]

/-! ### What GATEn shows (R401) -/

/-- GATEn.STAT and OPER_CYCLE with a list's length, its current entry and its cycle. -/
def State.withGateStat (len cur cycle : Nat) : State :=
  (((((s.setFld (GATE.STAT_GATES x) (s.gates x)).setFld (GATE.STAT_OPER_EN x) (b2n (s.port x).oper.isSome)).setFld (GATE.STAT_PENDING x)
    (b2n (s.port x).next.isSome)).setFld (GATE.STAT_OPER_LEN x) len).setFld (GATE.STAT_CURRENT x) cur).setFld (GATE.OPER_CYCLE_CYCLE x) cycle

theorem showGates_eq_withGateStat :
    ∃ cur cycle, showGates x s = s.withGateStat x ((s.port x).oper.elim 0 (fun g => g.entries.length)) cur cycle := by
  cases h : (s.port x).oper
  case none => exact ⟨0, 0, by simp only [showGates, State.withGateStat, h]; rfl⟩
  case some g => exact ⟨_, g.cycle, by simp only [showGates, State.withGateStat, h]; rfl⟩

section
variable (len cur cycle : Nat)

theorem State.withGateStat_gates : (s.withGateStat x len cur cycle).fld (GATE.STAT_GATES x) = s.gates x % 256 := by
  simp [State.withGateStat, State.fld_setFld_ne, State.fld_setFld_self, GATE.STAT_GATES, GATE.STAT_OPER_EN, GATE.STAT_PENDING,
    GATE.STAT_OPER_LEN, GATE.STAT_CURRENT, GATE.OPER_CYCLE_CYCLE]

theorem State.withGateStat_operEn :
    (s.withGateStat x len cur cycle).fld (GATE.STAT_OPER_EN x) = b2n (s.port x).oper.isSome % 2 := by
  simp [State.withGateStat, State.fld_setFld_ne, State.fld_setFld_self, GATE.STAT_OPER_EN, GATE.STAT_PENDING,
    GATE.STAT_OPER_LEN, GATE.STAT_CURRENT, GATE.OPER_CYCLE_CYCLE]

theorem State.withGateStat_pending :
    (s.withGateStat x len cur cycle).fld (GATE.STAT_PENDING x) = b2n (s.port x).next.isSome % 2 := by
  simp [State.withGateStat, State.fld_setFld_ne, State.fld_setFld_self, GATE.STAT_PENDING, GATE.STAT_OPER_LEN, GATE.STAT_CURRENT,
    GATE.OPER_CYCLE_CYCLE]

theorem State.withGateStat_operLen : (s.withGateStat x len cur cycle).fld (GATE.STAT_OPER_LEN x) = len % 1024 := by
  simp [State.withGateStat, State.fld_setFld_ne, State.fld_setFld_self, GATE.STAT_OPER_LEN, GATE.STAT_CURRENT, GATE.OPER_CYCLE_CYCLE]

theorem State.withGateStat_regsKept :
    Safety.RegsKept s (s.withGateStat x len cur cycle) [0x804078 + 0x1000 * x, 0x804088 + 0x1000 * x] := by
  unfold State.withGateStat
  iterate 6 refine regsKept_setFld ?_ (by simp [GATE.STAT_GATES, GATE.STAT_OPER_EN, GATE.STAT_PENDING, GATE.STAT_OPER_LEN,
    GATE.STAT_CURRENT, GATE.OPER_CYCLE_CYCLE]) _
  exact fun _ _ => rfl

end

/-- GATEn shows the gates in force, whether lists are in force and pending, and the length of the one in force (R401). -/
theorem showGates_shows :
    (showGates x s).fld (GATE.STAT_GATES x) = s.gates x % 256 ∧ (showGates x s).fld (GATE.STAT_OPER_EN x) = b2n (s.port x).oper.isSome
      ∧ (showGates x s).fld (GATE.STAT_PENDING x) = b2n (s.port x).next.isSome
      ∧ (showGates x s).fld (GATE.STAT_OPER_LEN x) = (s.port x).oper.elim 0 (fun g => g.entries.length) % 1024 := by
  have hbit : ∀ b : Bool, b2n b % 2 = b2n b := by decide
  obtain ⟨cur, cycle, h⟩ := showGates_eq_withGateStat s x
  rw [h]
  exact ⟨s.withGateStat_gates x _ _ _, (s.withGateStat_operEn x _ _ _).trans (hbit _), (s.withGateStat_pending x _ _ _).trans (hbit _),
    s.withGateStat_operLen x _ _ _⟩

theorem showGates_regsOnly : RegsOnly s (showGates x s) := by
  obtain ⟨cur, cycle, h⟩ := showGates_eq_withGateStat s x
  rw [h]
  exact (((((((RegsOnly.refl s).setFld _ _).setFld _ _).setFld _ _).setFld _ _).setFld _ _).setFld _ _)

/-- Of the registers it changes GATEn.STAT and OPER_CYCLE alone. -/
theorem showGates_regsKept : Safety.RegsKept s (showGates x s) [0x804078 + 0x1000 * x, 0x804088 + 0x1000 * x] := by
  obtain ⟨cur, cycle, h⟩ := showGates_eq_withGateStat s x
  rw [h]; exact s.withGateStat_regsKept x _ _ _

/-! ### The start of a pending list (R404) -/

/-- The state in which GATEn shows a started list: the waits settled, the list in force since its start. -/
def State.listStarted (g : GateList) : State :=
  (settleWaits x s).setPort x { s.port x with oper := some g, next := none, since := g.start, lastStart := g.start }

theorem startGate_eq (g : GateList) : startGate x g s = (showGates x (s.listStarted x g)).raise (Pg.gate x) 0 := rfl

theorem startGate_regsOnly (g : GateList) : RegsOnly (s.listStarted x g) (startGate x g s) :=
  (showGates_regsOnly (s.listStarted x g) x).raise _ _

theorem startGate_memoryKept (g : GateList) : Safety.MemoryKept s (startGate x g s) := (startGate_regsOnly s x g).memoryKept

/-- The pending list is the oper list, none is pending, and the start is kept for GATEn.START. -/
theorem startGate_port_self (g : GateList) :
    (startGate x g s).port x = { s.port x with oper := some g, next := none, since := g.start, lastStart := g.start } :=
  (State.port_congr (startGate_regsOnly s x g).ports x).trans (State.port_setPort_self _ _ _)

theorem startGate_port_ne (g : GateList) {y : Nat} (h : y ≠ x) : (startGate x g s).port y = s.port y :=
  (State.port_congr (startGate_regsOnly s x g).ports y).trans (State.port_setPort_ne _ _ _ h)

/-- GATEn shows the started list and none pending. -/
theorem startGate_shows (g : GateList) :
    (startGate x g s).fld (GATE.STAT_OPER_EN x) = 1 ∧ (startGate x g s).fld (GATE.STAT_PENDING x) = 0
      ∧ (startGate x g s).fld (GATE.STAT_OPER_LEN x) = g.entries.length % 1024 := by
  have hport : (s.listStarted x g).port x = { s.port x with oper := some g, next := none, since := g.start, lastStart := g.start } :=
    State.port_setPort_self _ _ _
  obtain ⟨-, hen, hpend, hlen⟩ := showGates_shows (s.listStarted x g) x
  rw [hport] at hen hpend hlen
  have hstat : ∀ f : Fld, f.key = 0x804078 + 0x1000 * x → (startGate x g s).fld f = (showGates x (s.listStarted x g)).fld f :=
    fun f hf => State.fld_raise_ne _ _ _ _ (by rw [hf, Pg.gate]; omega)
  exact ⟨(hstat _ rfl).trans hen, (hstat _ rfl).trans hpend, (hstat _ rfl).trans hlen⟩

theorem startGate_raised (g : GateList) : Safety.Raised (startGate x g s) (Pg.gate x) 0 := by
  rw [Safety.Raised, startGate_eq, State.fld_raise_self _ _ _ (by decide), bitAt_orBit]
  simp

theorem startGate_regsKept (g : GateList) :
    Safety.RegsKept s (startGate x g s) [0x804078 + 0x1000 * x, 0x804088 + 0x1000 * x, 0x804020 + 0x1000 * x] := by
  intro key hk
  simp only [List.mem_cons, List.not_mem_nil, or_false, not_or] at hk
  obtain ⟨hstat, hcycle, hevent⟩ := hk
  have hraise : (startGate x g s).reg key = (showGates x (s.listStarted x g)).reg key :=
    State.reg_raise_ne _ _ _ _ (by rw [Pg.gate]; omega)
  exact hraise.trans (showGates_regsKept (s.listStarted x g) x key (by simp [hstat, hcycle]))

/-! ### The abort of a pending list (R403) -/

/-- The pending list removed, STAT and START showing so. -/
def State.listAborted : State :=
  showStart x (s.port x).lastStart ((s.setPort x { s.port x with next := none }).setFld (GATE.STAT_PENDING x) 0)

theorem abortPending_of_none (b : Bool) (h : (s.port x).next = none) : abortPending x b s = (s, .ok) := by
  simp [abortPending, h]

theorem abortPending_of_some {g : GateList} (h : (s.port x).next = some g) : abortPending x false s = (s.listAborted x, .ok) := by
  simp [abortPending, h, State.listAborted]

/-- Where the pending list starts in the cycle of the abort, the start prevails (R403). -/
theorem abortPending_atStart {g : GateList} (h : (s.port x).next = some g) (hs : g.start ≤ s.ctr) :
    abortPending x true s = (startGate x g s, .stale) := by
  simp [abortPending, h, hs]

theorem listAborted_regsOnly : RegsOnly (s.setPort x { s.port x with next := none }) (s.listAborted x) :=
  (((RegsOnly.refl _).setFld _ _).setFld _ _).setFld _ _

theorem listAborted_memoryKept : Safety.MemoryKept s (s.listAborted x) := (listAborted_regsOnly s x).memoryKept

theorem listAborted_port_self : (s.listAborted x).port x = { s.port x with next := none } :=
  (State.port_congr (listAborted_regsOnly s x).ports x).trans (State.port_setPort_self _ _ _)

/-- STAT shows no pending list, START the start of the latest list that started. -/
theorem listAborted_shows :
    (s.listAborted x).fld (GATE.STAT_PENDING x) = 0 ∧ (s.listAborted x).fld (GATE.START_SEC_LO x) = secOf (s.port x).lastStart % 2 ^ 18
      ∧ (s.listAborted x).fld (GATE.START_NS x) = nsOf (s.port x).lastStart := by
  have hns : nsOf (s.port x).lastStart < 2 ^ 30 := by
    have hlt : (s.port x).lastStart % Config.unitsPerSec < 1000000000 * Config.unitsPerNs := Nat.mod_lt _ (by decide)
    exact (Nat.div_lt_of_lt_mul (by rwa [Nat.mul_comm])).trans (by decide)
  refine ⟨?_, ?_, ?_⟩ <;>
    simp [State.listAborted, showStart, State.fld_setFld_ne, State.fld_setFld_self, GATE.STAT_PENDING, GATE.START_SEC_LO, GATE.START_NS]
  exact hns

theorem listAborted_regsKept : Safety.RegsKept s (s.listAborted x) [0x804078 + 0x1000 * x, 0x804080 + 0x1000 * x] := by
  unfold State.listAborted showStart
  refine regsKept_setFld (regsKept_setFld (regsKept_setFld (fun _ _ => rfl) ?_ _) ?_ _) ?_ _ <;>
    simp [GATE.STAT_PENDING, GATE.START_SEC_LO, GATE.START_NS]

end

/-! ### The commands on gate lists -/

theorem EndsAs.port {s u t : State} (h : EndsAs s u t) (x : Nat) : t.port x = u.port x := by rw [h]; rfl

/-- A command of one cycle whose effect is on registers alone changes those and the attention generation. -/
theorem finish_onlyRegs {s u : State} (h : RegsOnly s u) {keys : List Nat} (hk : Safety.RegsKept s u keys) :
    Safety.Ends (finish s u) (fun t => t.regs = u.regs ∧ Safety.OnlyRegs s t keys) := by
  have hu : ({ u with attnGen := (finished s u).attnGen, pending := s.pending } : State)
      = { s with regs := u.regs, attnGen := (finished s u).attnGen } :=
    congrArg (fun w : State => ({ w with attnGen := (finished s u).attnGen, pending := s.pending } : State)) h
  exact ⟨finished s u, rfl, rfl, hu, hk⟩

/-- The pages at the places of R474 are those of the table. -/
theorem pageByIndex_mem {idx n : Nat} {p : PageInfo} (h : pageByIndex idx = some (p, n)) : p ∈ pageTable := by
  unfold pageByIndex at h
  split at h
  next q hq =>
    cases h
    exact List.mem_of_find?_eq_some hq
  next => cases h

theorem base_of_gate {p : PageInfo} (hp : p ∈ pageTable) (hk : p.kind = .gate) (n : Nat) : p.base n = Pg.gate n := by
  have hrow : ∀ q ∈ pageTable, q.kind = .gate → q.subsys = 8 ∧ q.page = 4 := by decide
  obtain ⟨hsub, hpage⟩ := hrow p hp hk
  rw [PageInfo.base, Pg.gate, hsub, hpage]; omega

theorem baseOf_gate (n : Nat) {off : Nat} (h : off < 0x1000) : baseOf (Pg.gate n + off) = Pg.gate n := by
  unfold baseOf Pg.gate; omega

theorem pageOf_gate_shadow : ∀ port : Fin 4, (pageOf (Pg.gate port.val + 0x38)).isSome = true := by decide

theorem gate_ne_spanReq (n off : Nat) : Pg.gate n + off ≠ 0x700040 := by unfold Pg.gate; omega

section
variable {s : State} {port : Fin 4}

/-- R401: a change of entry shows the gates in force. -/
theorem execGateEntryChange_ends (hi : s.inService = true) :
    Safety.Ends (execGateEntryChange port s) (fun t => t.fld (GATE.STAT_GATES port.val) = s.gates port.val % 256
      ∧ Safety.OnlyRegs s t [0x804078 + 0x1000 * port.val, 0x804088 + 0x1000 * port.val]) := by
  have hexec : execGateEntryChange port s = finish s (showGates port.val s) := congrArg (finish s) (if_pos hi)
  obtain ⟨t, ht, hregs, honly⟩ := finish_onlyRegs (showGates_regsOnly s port.val) (showGates_regsKept s port.val)
  exact ⟨t, hexec.trans ht, (State.fld_congr hregs _).trans (showGates_shows s port.val).1, honly⟩

/-- R404: at its start time the pending list is the oper list, and GATEn shows it. -/
theorem execGateListStart_ends {g : GateList} (hg : (s.port port.val).next = some g) (hi : s.inService = true) (hs : g.start ≤ s.ctr) :
    Safety.Ends (execGateListStart port s) (fun t =>
      (t.port port.val).oper = some g ∧ (t.port port.val).next = none ∧ (t.port port.val).lastStart = g.start
        ∧ (∀ x, x ≠ port.val → t.port x = s.port x)
        ∧ t.fld (GATE.STAT_OPER_EN port.val) = 1 ∧ t.fld (GATE.STAT_PENDING port.val) = 0
        ∧ t.fld (GATE.STAT_OPER_LEN port.val) = g.entries.length % 1024 ∧ Safety.Raised t (Pg.gate port.val) 0
        ∧ Safety.RegsKept s t [0x804078 + 0x1000 * port.val, 0x804088 + 0x1000 * port.val, 0x804020 + 0x1000 * port.val]
        ∧ Safety.MemoryKept s t) := by
  have hexec : execGateListStart port s = finish s (startGate port.val g s) := by
    unfold execGateListStart
    rw [hg]
    exact congrArg (finish s) (if_neg (by simp [hi, hs]))
  obtain ⟨t, ht, he⟩ := finish_endsAs s (startGate port.val g s)
  have hport : t.port port.val = _ := (he.port port.val).trans (startGate_port_self s port.val g)
  obtain ⟨hen, hpend, hlen⟩ := startGate_shows s port.val g
  refine ⟨t, hexec.trans ht, by rw [hport], by rw [hport], by rw [hport], fun x hx => ?_, ?_, ?_, ?_, ?_, ?_, ?_⟩
  · exact (he.port x).trans (startGate_port_ne s port.val g hx)
  · exact (he.fld _).trans hen
  · exact (he.fld _).trans hpend
  · exact (he.fld _).trans hlen
  · rw [Safety.Raised, he.fld]; exact startGate_raised s port.val g
  · exact he.regsKept (startGate_regsKept s port.val g)
  · exact he.memoryKept (startGate_memoryKept s port.val g)

/-- What an abort that is accepted leaves, with no list pending or with one that does not start in its cycle (R403). -/
theorem abortPending_leaves (s : State) (x : Nat) : ∃ u, abortPending x false s = (u, .ok) ∧ (u.port x).next = none
    ∧ (u.port x).oper = (s.port x).oper
    ∧ ((s.port x).next.isSome = true → u.fld (GATE.STAT_PENDING x) = 0 ∧ u.fld (GATE.START_SEC_LO x) = secOf (s.port x).lastStart % 2 ^ 18
        ∧ u.fld (GATE.START_NS x) = nsOf (s.port x).lastStart)
    ∧ Safety.RegsKept s u [0x804078 + 0x1000 * x, 0x804080 + 0x1000 * x] ∧ Safety.MemoryKept s u := by
  cases h : (s.port x).next
  case none =>
    exact ⟨s, abortPending_of_none s x false h, h, rfl, fun hsome => absurd hsome (by decide), fun _ _ => rfl, (RegsOnly.refl s).memoryKept⟩
  case some g =>
    have hport := listAborted_port_self s x
    exact ⟨s.listAborted x, abortPending_of_some s x h, by rw [hport], by rw [hport], fun _ => listAborted_shows s x,
      listAborted_regsKept s x, listAborted_memoryKept s x⟩

/-- R403: an abort leaves the oper list and shows the last start in START. -/
theorem execAbortPending_ends {path : Path} (h : Safety.Open path (Pg.gate port.val + 0x70) s) :
    Safety.Ends (execAbortPending path port false s) (fun t =>
      (t.port port.val).next = none ∧ (t.port port.val).oper = (s.port port.val).oper
        ∧ ((s.port port.val).next.isSome = true → t.fld (GATE.STAT_PENDING port.val) = 0
            ∧ t.fld (GATE.START_SEC_LO port.val) = secOf (s.port port.val).lastStart % 2 ^ 18
            ∧ t.fld (GATE.START_NS port.val) = nsOf (s.port port.val).lastStart)
        ∧ (path = .uasyn → t.replies.rsw = some (t.rsw .ok))
        ∧ Safety.RegsKept s t [0x804078 + 0x1000 * port.val, 0x804080 + 0x1000 * port.val] ∧ Safety.MemoryKept s t) := by
  obtain ⟨u, hop, hnext, hoper, hshow, hregs, hmem⟩ := abortPending_leaves s port.val
  obtain ⟨t, ht, he, hrsw⟩ := write_endsAs_noted h (gate_ne_spanReq _ _) 1 false (abortPending port.val false) (by simp [applied])
  rw [hop, noted_ok] at he
  rw [hop] at hrsw
  refine ⟨t, ht, ?_, ?_, fun hsome => ?_, hrsw, he.regsKept hregs, he.memoryKept hmem⟩
  · rw [he.port, hnext]
  · rw [he.port, hoper]
  · rw [he.fld, he.fld, he.fld]; exact hshow hsome

/-- R403: where the pending list starts in the cycle of the abort, it starts, and the abort completes with CODE STALE. -/
theorem execAbortPending_atStart_ends {path : Path} (h : Safety.Open path (Pg.gate port.val + 0x70) s) {g : GateList}
    (hg : (s.port port.val).next = some g) (hs : g.start ≤ s.ctr) :
    Safety.Ends (execAbortPending path port true s) (fun t =>
      (t.port port.val).oper = some g ∧ (t.port port.val).next = none ∧ t.fld (GATE.STAT_PENDING port.val) = 0
        ∧ (path = .uasyn → t.replies.rsw = some (t.rsw .stale)) ∧ Safety.Raised t (Pg.gate port.val) 0 ∧ Safety.MemoryKept s t) := by
  have hop := abortPending_atStart s port.val hg hs
  obtain ⟨t, ht, he, hrsw⟩ := write_endsAs_noted h (gate_ne_spanReq _ _) 1 false (abortPending port.val true) (by simp [applied])
  rw [hop] at he hrsw
  have hfld : ∀ f : Fld, f.key ≠ Pg.gate port.val + 0x18 → t.fld f = (startGate port.val g s).fld f := fun f hf =>
    (he.fld f).trans (noted_fld_ne path _ _ (by rwa [baseOf_gate _ (by decide)]))
  have hport : t.port port.val = _ :=
    ((he.port _).trans (State.port_congr (noted_ports path _ _) _)).trans (startGate_port_self s port.val g)
  refine ⟨t, ht, by rw [hport], by rw [hport], ?_, hrsw, ?_, he.memoryKept (noted_memoryKept _ _ _ (startGate_memoryKept s port.val g))⟩
  · rw [hfld _ (by simp only [GATE.STAT_PENDING, Pg.gate]; omega)]; exact (startGate_shows s port.val g).2.1
  · rw [Safety.Raised, hfld _ (by simp [PG_EVENT_EVENTS])]; exact startGate_raised s port.val g

/-! ### ARM of a GATE page (R403) -/

theorem shadowWrite_arm_of_pending {p : PageInfo} {n : Nat} (hk : p.kind = .gate) (hp : s.fld (GATE.STAT_PENDING n) = 1) (view c : Bool) :
    shadowWrite p n view true false c s = (s, .busy) := by
  simp [shadowWrite, hk, hp]

/-- A write that is not accepted is not measured. -/
theorem applied_of_ne_ok {op : RegOp} (h : (op s).2 ≠ .ok) (addr : Nat) (data : Reg) (m : Bool) : applied addr data m op s = op s := by
  simp [applied, h]

/-- R403: an ARM is refused with CODE BUSY while a list is pending. -/
theorem execShadowArm_ends_busy {path : Path} {page : Fin 202} {view : Bool} {p : PageInfo} (hpage : pageByIndex page.val = some (p, port.val))
    (hk : p.kind = .gate) (h : Safety.Open path (Pg.gate port.val + 0x38) s) (hpend : s.fld (GATE.STAT_PENDING port.val) = 1) :
    Safety.Ends (execShadowArm path page view s) (fun t =>
      t.shadow = s.shadow ∧ t.ports = s.ports ∧ (path = .uasyn → t.replies.rsw = some (t.rsw .busy))
        ∧ (path = .pcie → t.fld (PG_STAT_WR_CODE (Pg.gate port.val)) = Code.busy.num)
        ∧ Safety.RegsKept s t [Pg.gate port.val + 0x18] ∧ Safety.MemoryKept s t) := by
  have hbase := baseOf_gate port.val (off := 0x38) (by decide)
  have hop := shadowWrite_arm_of_pending hk hpend view false
  obtain ⟨t, ht, he, hrsw⟩ := write_endsAs_noted h (gate_ne_spanReq _ _) (BitVec.ofNat 48 (2 + 8 * b2n view))
    (measuredAt (Pg.gate port.val + 0x38)) (shadowWrite p port.val view true false false) (applied_of_ne_ok (by simp [hop]) _ _ _)
  have hexec : execShadowArm path page view s = .next t := by
    unfold execShadowArm State.shadowOp
    rw [hpage]
    dsimp only
    rw [base_of_gate (pageByIndex_mem hpage) hk]
    exact ht
  rw [hop] at he hrsw
  have hregs := noted_regsKept path (Pg.gate port.val + 0x38) (s, .busy)
  rw [hbase] at hregs
  refine ⟨t, hexec, ?_, ?_, hrsw, ?_, he.regsKept hregs, he.memoryKept (noted_memoryKept _ _ _ (RegsOnly.refl s).memoryKept)⟩
  · rw [he]; exact noted_shadow _ _ _
  · rw [he]; exact noted_ports _ _ _
  · rintro rfl
    have hcode := noteCode_wrCode (Pg.gate port.val + 0x38) s (c := .busy) (by decide) (pageOf_gate_shadow port)
    rw [hbase] at hcode
    exact (he.fld _).trans hcode

end
end Sys2Proof.Machine
end

section
/-!
PROOFS. Proofs/Shapers.lean: the tokens that an accepted SHAPE leaves, which write each SHAPE register has, and the statement on gates and
shapers (R395, R399, R401, R403, R404).
-/
namespace Sys2Proof.Machine

/-! ### Token buckets (R395, R399) -/

/-- Whole tokens are kept as they are (R395). -/
theorem keptTokens_natCast (up : Bool) (n : Nat) : keptTokens up (n : Rat) = n := by
  have hscaled : ((n : Rat) * 16777216) = ((n * 16777216 : Int) : Rat) := by push_cast; rfl
  unfold keptTokens
  dsimp only
  rw [hscaled, Rat.floor_intCast, if_pos rfl]

section
variable (s : State)

/-- A bucket whose tokens were set to a whole number within BURST in this cycle holds them. -/
theorem State.tokens_of_set {b n : Nat} (hb : Store.at s.buckets {} b = { tokens := n, at0 := s.cyc }) (hn : n ≤ 64 * (s.shape b).2) :
    s.tokens b = n := by
  have hnow : ((n : Rat) + (((s.cyc - s.cyc) * (s.shape b).1 * 125 : Nat) : Rat) / 400000000) = n := by simp
  unfold State.tokens
  dsimp only
  rw [hb, hnow, keptTokens_natCast]
  exact min_eq_right (by exact_mod_cast hn)

/-- The tokens that an accepted SHAPE leaves a bucket: BURST, or none (R399). -/
def State.newTokens (full : Bool) (b : Nat) : Nat := if full then 64 * (s.shape b).2 else 0

theorem State.newTokens_cast (full : Bool) (b : Nat) :
    (s.newTokens full b : Rat) = if full then ((64 * (s.shape b).2 : Nat) : Rat) else 0 := by
  unfold State.newTokens; split <;> simp

theorem setTokens_at (b : Nat) (x : Rat) (b' : Nat) :
    Store.at (setTokens b x s).buckets {} b' = if b' = b then { tokens := x, at0 := s.cyc } else Store.at s.buckets {} b' := by
  by_cases h : b' = b
  · subst h; rw [if_pos rfl]; exact Store.at_put_self _ _ _ _
  · rw [if_neg h]; exact Store.at_put_ne _ _ _ h

end

/-- An accepted SHAPE changes the token buckets alone. -/
theorem retoken_eq (full : Bool) (l : List Nat) (s : State) : retoken full l s = { s with buckets := (retoken full l s).buckets } := by
  induction l generalizing s with
  | nil => rfl
  | cons b l ih => exact ih (setTokens b (if full then ((64 * (s.shape b).2 : Nat) : Rat) else 0) s)

/-- It sets the buckets of its list, at this cycle, and no other. -/
theorem retoken_at (full : Bool) (l : List Nat) (s : State) (b : Nat) :
    Store.at (retoken full l s).buckets {} b
      = if b ∈ l then { tokens := s.newTokens full b, at0 := s.cyc } else Store.at s.buckets {} b := by
  induction l generalizing s with
  | nil => rfl
  | cons b' l ih =>
    have hstep := ih (setTokens b' (if full then ((64 * (s.shape b').2 : Nat) : Rat) else 0) s)
    rw [setTokens_at] at hstep
    refine hstep.trans ?_
    by_cases hl : b ∈ l
    · rw [if_pos hl, if_pos (List.mem_cons_of_mem _ hl)]; rfl
    · by_cases hb : b = b'
      · subst hb
        rw [if_neg hl, if_pos rfl, if_pos List.mem_cons_self, State.newTokens_cast]
      · rw [if_neg hl, if_neg hb, if_neg (by simp [hl, hb])]

/-- Every bucket of its list holds BURST tokens or none. -/
theorem tokens_retoken {full : Bool} {l : List Nat} {b : Nat} (hb : b ∈ l) (s : State) :
    (retoken full l s).tokens b = if full then ((64 * (s.shape b).2 : Nat) : Rat) else 0 := by
  have hcyc : (retoken full l s).cyc = s.cyc := by rw [retoken_eq]
  have hshape : (retoken full l s).shape b = s.shape b := by rw [retoken_eq]; rfl
  rw [← State.newTokens_cast]
  refine State.tokens_of_set _ ?_ ?_
  · rw [retoken_at, if_pos hb, hcyc]
  · rw [hshape, State.newTokens]; split <;> omega

/-! ### The buckets of each shaper -/

section
variable (s : State)

theorem shape_queueBucket {n i p : Nat} (hn : n < 8) (hi : i < 1024) (hp : p < 2) :
    s.shape (queueBucket (1024 * n + i) p) = (s.fld (QUE.SHAPE_RATE_KBPS n i), s.fld (QUE.SHAPE_BURST n i)) := by
  have hdiv : queueBucket (1024 * n + i) p / 2048 = n := by unfold queueBucket; omega
  have hmod : queueBucket (1024 * n + i) p / 2 % 1024 = i := by unfold queueBucket; omega
  rw [State.shape, if_pos (by unfold queueBucket; omega), hdiv, hmod]

theorem shape_svcBucket {n k p : Nat} (hn : n < 4) (hk : k < 32) (hp : p < 2) :
    s.shape (svcBucket (32 * n + k) p) = (s.fld (SHP.SVC_SHAPE_RATE_KBPS n k), s.fld (SHP.SVC_SHAPE_BURST n k)) := by
  have hdiv : (svcBucket (32 * n + k) p - 20000) / 2 / 32 = n := by unfold svcBucket; omega
  have hmod : (svcBucket (32 * n + k) p - 20000) / 2 % 32 = k := by unfold svcBucket; omega
  rw [State.shape, if_neg (by unfold svcBucket; omega), if_pos (by unfold svcBucket; omega)]
  dsimp only
  rw [hdiv, hmod]

theorem shape_classBucket {n k : Nat} (hk : k < 8) :
    s.shape (classBucket n k) = (s.fld (SHP.CLS_RATE_KBPS n k), s.fld (SHP.CLS_BURST n k)) := by
  have hdiv : (classBucket n k - 30000) / 8 = n := by unfold classBucket; omega
  have hmod : (classBucket n k - 30000) % 8 = k := by unfold classBucket; omega
  rw [State.shape, if_neg (by unfold classBucket; omega), if_neg (by unfold classBucket; omega), hdiv, hmod]

end

/-! ### The SHAPE registers (R396, R399) -/

/-- RATE_KBPS and BURST of a SHAPE register; the reset values differ. -/
def shapeFields (rate burst : Nat) : List FieldDesc :=
  [⟨19, 29, .rw, rate, .range 0 400000000⟩, ⟨0, 19, .rw, burst, .range 1 262144⟩]

/-- A register at an address is that of its page's table, on a page within its family. -/
theorem registerAt_some {addr n k : Nat} {p : PageInfo} {r : RegDesc} (h : registerAt addr = some (p, n, r, k)) :
    p ∈ pageTable ∧ n < p.count ∧ regAt p.kind (addr % 0x1000) = some (r, k) ∧ addr % 8 = 0 := by
  unfold registerAt at h
  split at h
  next => cases h
  next q m hpage =>
    split at h
    next => cases h
    next d j hreg =>
      split at h
      next halign =>
        cases h
        unfold pageOf at hpage
        dsimp only at hpage
        split at hpage
        next q hq =>
          cases hpage
          have hrow := List.find?_some hq
          simp only [decide_eq_true_eq] at hrow
          exact ⟨List.mem_of_find?_eq_some hq, by omega, hreg, halign⟩
        next => cases hpage
      next => cases h

theorem count_of_que : ∀ p ∈ pageTable, p.kind = .que → p.count = 8 := by decide

theorem count_of_shp : ∀ p ∈ pageTable, p.kind = .shp → p.count = 4 := by decide

theorem regAt_que_shape : regAt .que 0x50 = some (⟨0x50, 1, 0x8, .que, shapeFields 0 0x18⟩, 0) := by decide

theorem regAt_shp_class : ∀ k < 8, regAt .shp (0x48 + 8 * k) = some (⟨0x48, 8, 0x8, .none, shapeFields 0x17d78400 0x40000⟩, k) := by decide

theorem regAt_shp_service : ∀ k < 60, regAt .shp (0x108 + 0x40 * k)
    = if k < 32 then some (⟨0x108, 32, 0x40, .none, shapeFields 0 0x18⟩, k) else none := by decide

section
variable {s : State} {addr n k rate burst : Nat} {data : Reg} {p : PageInfo} {r : RegDesc}

theorem writeFields_shape (hr : r.fields = shapeFields rate burst) (hacc : r.accepts data = true) (b key : Nat) :
    writeFields b r key data s = (s.setReg key (r.written (s.reg key) data), .ok) := by
  simp [writeFields, hacc, hr, shapeFields]

/-- A candidate state that passes the check is accepted. -/
theorem provided_of_holds {ok : State → Bool} {t : State} (h : ok t = true) (c : Code) : provided ok c s (t, .ok) = (t, .ok) := by
  simp [provided, h]

/-- The state with a SHAPE register written. -/
def State.shaped (s : State) (r : RegDesc) (key : Nat) (data : Reg) : State := s.setReg key (r.written (s.reg key) data)

/-- A write of a SHAPE register of QUEn reaches that page's own behaviour. -/
theorem regWrite_que {path : Path} (hreg : registerAt addr = some (p, n, r, k)) (hk : p.kind = .que) (ho : addr % 0x1000 = 0x50)
    (hr : r.fields = shapeFields rate burst) :
    regWrite path addr data s = queWrite n 0x50 (fun t => writeFields (p.base n) r (t.keyAt addr r n) data t) s := by
  unfold regWrite
  rw [hreg]
  dsimp only
  rw [if_neg (by omega), if_neg (by simp [hr, shapeFields]), hk, ho]

/-- A write of a SHAPE register of SHPn reaches that page's own behaviour. -/
theorem regWrite_shp {path : Path} (hreg : registerAt addr = some (p, n, r, k)) (hk : p.kind = .shp) (ho : 0x40 ≤ addr % 0x1000)
    (hr : r.fields = shapeFields rate burst) :
    regWrite path addr data s = shpWrite n (addr % 0x1000) k (fun t => writeFields (p.base n) r (t.keyAt addr r n) data t) s := by
  unfold regWrite
  rw [hreg]
  dsimp only
  rw [if_neg (by omega), if_neg (by simp [hr, shapeFields]), hk]

/-- The SHAPE written changes neither the queue's service nor the service's TOKENS_ON_CHANGE. -/
theorem tokensFull_shaped (hkey : (s.keyAt addr r n) % 0x1000 = 0x50) (q : Nat) :
    (s.shaped r (s.keyAt addr r n) data).tokensFull ((s.shaped r (s.keyAt addr r n) data).serviceOf q / 32)
      = s.tokensFull (s.serviceOf q / 32) := by
  have hfld : ∀ f : Fld, f.key % 0x1000 ≠ 0x50 → (s.shaped r (s.keyAt addr r n) data).fld f = s.fld f := fun f hf =>
    congrArg (fun v => bitsOf v f.lo f.w) (State.reg_setReg_ne s _ (fun e => hf (by rw [e, hkey])))
  have hsvc : (s.shaped r (s.keyAt addr r n) data).serviceOf q = s.serviceOf q :=
    hfld _ (by simp only [QUE.CFG_SERVICE, winKey]; omega)
  have hfull : ∀ m, (s.shaped r (s.keyAt addr r n) data).fld (SHP.CFG_TOKENS_ON_CHANGE m) = s.fld (SHP.CFG_TOKENS_ON_CHANGE m) :=
    fun m => hfld _ (by simp only [SHP.CFG_TOKENS_ON_CHANGE]; omega)
  rw [hsvc, State.tokensFull, State.tokensFull, hfull]

/-- An accepted write of QUEn.SHAPE sets both buckets of the selected queue. -/
theorem regWrite_queShape {path : Path} (hreg : registerAt addr = some (p, n, r, k)) (hk : p.kind = .que) (ho : addr % 0x1000 = 0x50)
    (hacc : r.accepts data = true) (hhold : s.allHold (s.shaped r (s.keyAt addr r n) data) = true) :
    regWrite path addr data s = (retoken (s.tokensFull (s.serviceOf (1024 * n + s.fld (QUE.SEL_INDEX n)) / 32))
      [queueBucket (1024 * n + s.fld (QUE.SEL_INDEX n)) 0, queueBucket (1024 * n + s.fld (QUE.SEL_INDEX n)) 1]
      (s.shaped r (s.keyAt addr r n) data), .ok) := by
  obtain ⟨-, -, hrow, -⟩ := registerAt_some hreg
  rw [hk, ho, regAt_que_shape] at hrow
  cases hrow
  have hkey : (s.keyAt addr ⟨0x50, 1, 0x8, .que, shapeFields 0 0x18⟩ n) % 0x1000 = 0x50 := by
    simp only [State.keyAt, reduceCtorEq, if_false, winKey]; omega
  rw [regWrite_que hreg hk ho rfl, queWrite]
  rw [if_neg (by decide), if_pos rfl, writeFields_shape rfl hacc]
  change thenDo (provided s.allHold .busy s (s.shaped _ _ data, .ok)) _ = _
  rw [provided_of_holds hhold, thenDo, if_pos rfl, tokensFull_shaped hkey]

/-- An accepted write of a class's SHAPE sets its one bucket. -/
theorem regWrite_classShape {path : Path} (hreg : registerAt addr = some (p, n, r, k)) (hk : p.kind = .shp) (hlo : 0x48 ≤ addr % 0x1000)
    (hhi : addr % 0x1000 < 0x88) (hr : r.fields = shapeFields rate burst) (hacc : r.accepts data = true)
    (hhold : s.allHold (s.shaped r (s.keyAt addr r n) data) = true) :
    regWrite path addr data s = (retoken (s.tokensFull n) [classBucket n k] (s.shaped r (s.keyAt addr r n) data), .ok) := by
  rw [regWrite_shp hreg hk (by omega) hr, shpWrite]
  dsimp only
  rw [if_pos ⟨hlo, hhi⟩, writeFields_shape hr hacc]
  change thenDo (provided s.allHold .busy s (s.shaped _ _ data, .ok)) _ = _
  rw [provided_of_holds hhold, thenDo, if_pos rfl]

/-- An accepted write of a service's SHAPE sets its two buckets. -/
theorem regWrite_svcShape {path : Path} (hreg : registerAt addr = some (p, n, r, k)) (hk : p.kind = .shp) (hlo : 0x100 ≤ addr % 0x1000)
    (hoff : addr % 0x1000 % 0x40 = 8) (hr : r.fields = shapeFields rate burst) (hacc : r.accepts data = true)
    (hhold : s.allHold (s.shaped r (s.keyAt addr r n) data) = true) :
    regWrite path addr data s = (retoken (s.tokensFull n) [svcBucket (32 * n + k) 0, svcBucket (32 * n + k) 1]
      (s.shaped r (s.keyAt addr r n) data), .ok) := by
  rw [regWrite_shp hreg hk (by omega) hr, shpWrite]
  dsimp only
  rw [if_neg (by omega), if_neg (by omega), if_pos hoff, writeFields_shape hr hacc]
  change thenDo (provided s.allHold .busy s (s.shaped _ _ data, .ok)) _ = _
  rw [provided_of_holds hhold, thenDo, if_pos rfl]

end

/-- The row of a class's SHAPE. -/
theorem registerAt_class {addr n k : Nat} {p : PageInfo} {r : RegDesc} (hreg : registerAt addr = some (p, n, r, k)) (hk : p.kind = .shp)
    (hlo : 0x48 ≤ addr % 0x1000) (hhi : addr % 0x1000 < 0x88) :
    r = ⟨0x48, 8, 0x8, .none, shapeFields 0x17d78400 0x40000⟩ ∧ k < 8 := by
  obtain ⟨-, -, hrow, halign⟩ := registerAt_some hreg
  have hoff : addr % 0x1000 = 0x48 + 8 * ((addr % 0x1000 - 0x48) / 8) := by omega
  have hlt : (addr % 0x1000 - 0x48) / 8 < 8 := by omega
  rw [hk, hoff, regAt_shp_class _ hlt] at hrow
  cases hrow
  exact ⟨rfl, hlt⟩

/-- The row of a service's SHAPE. -/
theorem registerAt_service {addr n k : Nat} {p : PageInfo} {r : RegDesc} (hreg : registerAt addr = some (p, n, r, k)) (hk : p.kind = .shp)
    (hlo : 0x100 ≤ addr % 0x1000) (hmod : addr % 0x40 = 8) : r = ⟨0x108, 32, 0x40, .none, shapeFields 0 0x18⟩ ∧ k < 32 := by
  obtain ⟨-, -, hrow, -⟩ := registerAt_some hreg
  have hoff : addr % 0x1000 = 0x108 + 0x40 * ((addr % 0x1000 - 0x108) / 0x40) := by omega
  rw [hk, hoff, regAt_shp_service _ (by omega)] at hrow
  split at hrow
  next hlt => cases hrow; exact ⟨rfl, hlt⟩
  next => cases hrow

/-! ### The command -/

/-- A SHAPE written whose behaviour is to set the buckets of a list ends so: its register alone changes, and those buckets hold BURST or none. -/
theorem execShapeWrite_ends {s : State} {path : Path} {addr : BitVec 24} {data : Reg} {r : RegDesc} {key : Nat} {full : Bool} {l : List Nat}
    (h : Safety.Open path addr.toNat s) (hreg : (registerAt addr.toNat).isSome = true)
    (hw : regWrite path addr.toNat data s = (retoken full l (s.shaped r key data), .ok)) :
    Safety.Ends (execShapeWrite path addr data s) (fun t =>
      t.reg key = r.written (s.reg key) data ∧ Safety.RegsKept s t [key]
        ∧ (∀ b ∈ l, t.tokens b = if full = true then ((64 * (t.shape b).2 : Nat) : Rat) else 0) ∧ Safety.MemoryKept s t) := by
  obtain ⟨t, ht, he⟩ := write_ends h data (measuredAt addr.toNat) (regWrite path addr.toNat data) (by rw [hw])
  rw [hw, retoken_eq] at he
  have hexec : execShapeWrite path addr data s = .next t := by
    unfold execShapeWrite State.writeAt
    rw [hreg]; exact ht
  have hregs : t.regs = (s.shaped r key data).regs := by rw [he]
  have hshape : ∀ b, t.shape b = (s.shaped r key data).shape b := fun b => by rw [he]; rfl
  have htok : ∀ b, t.tokens b = (retoken full l (s.shaped r key data)).tokens b := fun b => by rw [he, retoken_eq]; rfl
  refine ⟨t, hexec, ?_, fun k hk => ?_, fun b hb => ?_, ?_⟩
  · rw [State.reg_congr hregs]; exact State.reg_setReg_self _ _ _
  · rw [State.reg_congr hregs]; exact State.reg_setReg_ne _ _ (fun e => hk (List.mem_singleton.2 e))
  · rw [htok, tokens_retoken hb, hshape]
  · rw [he]; exact ⟨rfl, rfl, rfl, rfl, rfl, rfl, rfl⟩

/-- An index below 2 is one of the two paths. -/
theorem bucket_mem_pair {p : Nat} (f : Nat → Nat) (hp : p < 2) : f p ∈ [f 0, f 1] := by
  obtain rfl | rfl : p = 0 ∨ p = 1 := by omega
  · exact List.mem_cons_self
  · exact List.mem_cons_of_mem _ List.mem_cons_self

section
variable {s : State} {path : Path} {addr : BitVec 24} {data : Reg} {p : PageInfo} {n k : Nat} {r : RegDesc}

/-- R399: a queue's SHAPE leaves both its buckets with BURST tokens or none. -/
theorem execShapeWrite_que_ends (hreg : registerAt addr.toNat = some (p, n, r, k)) (h : Safety.Open path addr.toNat s)
    (hacc : r.accepts data = true) (hhold : s.allHold (s.shaped r (s.keyAt addr.toNat r n) data) = true) (hk : p.kind = .que)
    (ho : addr.toNat % 0x1000 = 0x50) :
    Safety.Ends (execShapeWrite path addr data s) (fun t =>
      t.reg (s.keyAt addr.toNat r n) = r.written (s.reg (s.keyAt addr.toNat r n)) data ∧ Safety.RegsKept s t [s.keyAt addr.toNat r n]
        ∧ (∀ path', path' < 2 → t.tokens (queueBucket (1024 * n + s.fld (QUE.SEL_INDEX n)) path')
            = if s.tokensFull (s.serviceOf (1024 * n + s.fld (QUE.SEL_INDEX n)) / 32) = true
                then ((64 * t.fld (QUE.SHAPE_BURST n (s.fld (QUE.SEL_INDEX n))) : Nat) : Rat) else 0)
        ∧ Safety.MemoryKept s t) := by
  obtain ⟨hp, hn, -, -⟩ := registerAt_some hreg
  rw [count_of_que p hp hk] at hn
  obtain ⟨t, ht, hval, hkept, htok, hmem⟩ :=
    execShapeWrite_ends h (by rw [hreg]; rfl) (regWrite_queShape hreg hk ho hacc hhold)
  refine ⟨t, ht, hval, hkept, fun path' hp' => ?_, hmem⟩
  rw [htok _ (bucket_mem_pair (queueBucket _) hp'), shape_queueBucket t hn (s.fld_lt (QUE.SEL_INDEX n)) hp']

/-- R399: a class's SHAPE leaves its bucket with BURST tokens or none. -/
theorem execShapeWrite_class_ends (hreg : registerAt addr.toNat = some (p, n, r, k)) (h : Safety.Open path addr.toNat s)
    (hacc : r.accepts data = true) (hhold : s.allHold (s.shaped r (s.keyAt addr.toNat r n) data) = true) (hk : p.kind = .shp)
    (hlo : 0x48 ≤ addr.toNat % 0x1000) (hhi : addr.toNat % 0x1000 < 0x88) :
    Safety.Ends (execShapeWrite path addr data s) (fun t =>
      t.reg addr.toNat = r.written (s.reg addr.toNat) data ∧ Safety.RegsKept s t [addr.toNat]
        ∧ t.tokens (classBucket n k) = (if s.tokensFull n = true then ((64 * t.fld (SHP.CLS_BURST n k) : Nat) : Rat) else 0)
        ∧ Safety.MemoryKept s t) := by
  obtain ⟨rfl, hlt⟩ := registerAt_class hreg hk hlo hhi
  obtain ⟨t, ht, hval, hkept, htok, hmem⟩ :=
    execShapeWrite_ends h (by rw [hreg]; rfl) (regWrite_classShape hreg hk hlo hhi rfl hacc hhold)
  refine ⟨t, ht, hval, hkept, ?_, hmem⟩
  rw [htok _ List.mem_cons_self, shape_classBucket t hlt]

/-- R399: a service's SHAPE leaves both its buckets with BURST tokens or none. -/
theorem execShapeWrite_service_ends (hreg : registerAt addr.toNat = some (p, n, r, k)) (h : Safety.Open path addr.toNat s)
    (hacc : r.accepts data = true) (hhold : s.allHold (s.shaped r (s.keyAt addr.toNat r n) data) = true) (hk : p.kind = .shp)
    (hlo : 0x100 ≤ addr.toNat % 0x1000) (hmod : addr.toNat % 0x40 = 8) :
    Safety.Ends (execShapeWrite path addr data s) (fun t =>
      t.reg addr.toNat = r.written (s.reg addr.toNat) data ∧ Safety.RegsKept s t [addr.toNat]
        ∧ (∀ path', path' < 2 → t.tokens (svcBucket (32 * n + k) path')
            = if s.tokensFull n = true then ((64 * t.fld (SHP.SVC_SHAPE_BURST n k) : Nat) : Rat) else 0)
        ∧ Safety.MemoryKept s t) := by
  obtain ⟨hp, hn, -, -⟩ := registerAt_some hreg
  rw [count_of_shp p hp hk] at hn
  obtain ⟨rfl, hlt⟩ := registerAt_service hreg hk hlo hmod
  obtain ⟨t, ht, hval, hkept, htok, hmem⟩ :=
    execShapeWrite_ends h (by rw [hreg]; rfl) (regWrite_svcShape hreg hk hlo (by omega) rfl hacc hhold)
  refine ⟨t, ht, hval, hkept, fun path' hp' => ?_, hmem⟩
  rw [htok _ (bucket_mem_pair (svcBucket _) hp'), shape_svcBucket t hn hlt hp']

end

/-- Settles O53: each command on a port's lists ends as its effect leaves them, and a SHAPE of a queue, a class or a service sets the tokens of
its buckets. -/
theorem gatesAndShapers : Obligations.GatesAndShapers := by
  unfold Obligations.GatesAndShapers
  intro s
  refine ⟨fun port hi => ?_, fun port g hg hi hs => ?_, fun path port h => ⟨?_, fun g hg hs => ?_⟩,
    fun path page port view p hpage hk h hpend => ?_,
    fun path addr data p n r k hreg h hacc hhold => ⟨fun hk ho => ?_, fun hk hlo hhi => ?_, fun hk hlo hmod => ?_⟩⟩
  · exact execGateEntryChange_ends hi
  · exact execGateListStart_ends hg hi hs
  · exact execAbortPending_ends h
  · exact execAbortPending_atStart_ends h hg hs
  · exact execShadowArm_ends_busy hpage hk h hpend
  · exact execShapeWrite_que_ends hreg h hacc hhold hk ho
  · exact execShapeWrite_class_ends hreg h hacc hhold hk hlo hhi
  · exact execShapeWrite_service_ends hreg h hacc hhold hk hlo hmod

end Sys2Proof.Machine
end

section
/-!
PROOFS. Proofs/Counters.lean: what a count and a wrap of a performance counter leave, what CLEAR_ALL leaves, what the latching reads of TIME_SEC,
OFFSET_SEC and FLOG_W0 leave, and the statement on them (R161, R448, R450, R452, R463).
-/
namespace Sys2Proof.Machine

/-! ### Registers written, registers kept -/

section
variable {s u : State} {keys : List Nat}

theorem RegsOnly.setReg (h : RegsOnly s u) (key : Nat) (v : Reg) : RegsOnly s (u.setReg key v) := by
  have hset := congrArg (fun w : State => ({ w with regs := (u.setReg key v).regs } : State)) h
  exact hset

/-- A listed register written keeps the others. -/
theorem regsKept_setReg (h : Safety.RegsKept s u keys) {key : Nat} (hk : key ∈ keys) (v : Reg) : Safety.RegsKept s (u.setReg key v) keys :=
  fun k hne => (State.reg_setReg_ne u v (ne_of_mem_of_not_mem hk hne).symm).trans (h k hne)

end

/-! ### The registers of the counters (R448) -/

section
variable (c d : Nat)

theorem cntKey_ne_evselKey : cntKey c ≠ evselKey d := by unfold cntKey evselKey winKey; omega

theorem cntKey_ne_event : cntKey c ≠ Pg.pmc + 0x20 := by unfold cntKey winKey Pg.pmc; omega

theorem evselKey_ne_event : evselKey c ≠ Pg.pmc + 0x20 := by unfold evselKey winKey Pg.pmc; omega

theorem cntKey_succ_ne : cntKey c ≠ cntKey (c + 1) := by unfold cntKey winKey; omega

theorem evselKey_succ_ne : evselKey c ≠ evselKey (c + 1) := by unfold evselKey winKey; omega

theorem cntKey_offset : cntKey c % 0x1000000 = 0x6200 + 8 * (c % 64) := by unfold cntKey winKey; omega

end

/-! ### One count (R448, R452) -/

/-- A wrap of counter `c`: OVF is set, and OVERFLOW raised when OVF_EV is 1. -/
def State.overflow (s : State) (c : Nat) : State :=
  let t := s.setReg (evselKey c) (withBits (s.reg (evselKey c)) 45 1 1)
  if bitsOf (s.reg (evselKey c)) 43 1 = 1 then t.raise Pg.pmc 0 else t

section
variable {s u : State} {keys : List Nat} (c n : Nat)

theorem addCount_eq (s : State) : addCount c n s
    = if (s.reg (cntKey c)).toNat + n < 2 ^ 48 then (s.setReg (cntKey c) (s.reg (cntKey c) + BitVec.ofNat 48 n), false)
      else ((s.setReg (cntKey c) (s.reg (cntKey c) + BitVec.ofNat 48 n)).overflow c, true) := by
  have hsum : BitVec.ofNat 48 ((s.reg (cntKey c)).toNat + n) = s.reg (cntKey c) + BitVec.ofNat 48 n := by
    rw [BitVec.ofNat_add, BitVec.ofNat_toNat, BitVec.setWidth_eq]
  unfold addCount
  dsimp only
  rw [hsum]
  rfl

/-- A count leaves its sum in the counter, with or without the overflow's signs. -/
theorem addCount_fst (s : State) : (addCount c n s).1 = s.setReg (cntKey c) (s.reg (cntKey c) + BitVec.ofNat 48 n)
    ∨ (addCount c n s).1 = (s.setReg (cntKey c) (s.reg (cntKey c) + BitVec.ofNat 48 n)).overflow c := by
  rw [addCount_eq]; split
  · exact .inl rfl
  · exact .inr rfl

theorem RegsOnly.overflow (h : RegsOnly s u) : RegsOnly s (u.overflow c) := by
  unfold State.overflow; dsimp only; split
  · exact (h.setReg _ _).raise _ _
  · exact h.setReg _ _

theorem RegsOnly.addCount (h : RegsOnly s u) : RegsOnly s (addCount c n u).1 := by
  rcases addCount_fst c n u with e | e <;> rw [e]
  · exact h.setReg _ _
  · exact (h.setReg _ _).overflow c

theorem regsKept_overflow (h : Safety.RegsKept s u keys) (hsel : evselKey c ∈ keys) (hev : Pg.pmc + 0x20 ∈ keys) :
    Safety.RegsKept s (u.overflow c) keys := by
  unfold State.overflow; dsimp only; split
  · exact regsKept_setFld (regsKept_setReg h hsel _) hev _
  · exact regsKept_setReg h hsel _

theorem regsKept_addCount (h : Safety.RegsKept s u keys) (hcnt : cntKey c ∈ keys) (hsel : evselKey c ∈ keys) (hev : Pg.pmc + 0x20 ∈ keys) :
    Safety.RegsKept s (addCount c n u).1 keys := by
  rcases addCount_fst c n u with e | e <;> rw [e]
  · exact regsKept_setReg h hcnt _
  · exact regsKept_overflow c (regsKept_setReg h hcnt _) hsel hev

/-- A count keeps every register but the counter, its EVSEL and the page's events. -/
theorem addCount_regsKept (s : State) : Safety.RegsKept s (addCount c n s).1 [cntKey c, evselKey c, Pg.pmc + 0x20] :=
  regsKept_addCount c n (fun _ _ => rfl) (by simp) (by simp) (by simp)

theorem overflow_cnt (s : State) : (s.overflow c).reg (cntKey c) = s.reg (cntKey c) :=
  regsKept_overflow (keys := [evselKey c, Pg.pmc + 0x20]) c (fun _ _ => rfl) (by simp) (by simp) _
    (by simp [cntKey_ne_evselKey, cntKey_ne_event])

/-- The counter holds the sum, modulo 2^48. -/
theorem addCount_cnt (s : State) : (addCount c n s).1.reg (cntKey c) = s.reg (cntKey c) + BitVec.ofNat 48 n := by
  rcases addCount_fst c n s with e | e <;> rw [e]
  · exact State.reg_setReg_self _ _ _
  · exact (overflow_cnt c _).trans (State.reg_setReg_self _ _ _)

theorem overflow_ovf (s : State) : bitsOf ((s.overflow c).reg (evselKey c)) 45 1 = 1 := by
  have hset : (s.overflow c).reg (evselKey c) = withBits (s.reg (evselKey c)) 45 1 1 := by
    unfold State.overflow; dsimp only; split
    · exact (State.reg_raise_ne _ _ _ _ (evselKey_ne_event c)).trans (State.reg_setReg_self _ _ _)
    · exact State.reg_setReg_self _ _ _
  rw [hset, bitsOf_withBits_self _ _ _ _ (by decide)]; rfl

/-- Raising an event leaves it in PG_EVENT. -/
theorem raised_raise (s : State) (b : Nat) {k : Nat} (hk : k < 16) : Safety.Raised (s.raise b k) b k := by
  rw [Safety.Raised, State.fld_raise_self _ _ _ hk, bitAt_orBit]; simp

theorem overflow_raised (s : State) (hev : bitsOf (s.reg (evselKey c)) 43 1 = 1) : Safety.Raised (s.overflow c) Pg.pmc 0 := by
  unfold State.overflow
  rw [if_pos hev]
  exact raised_raise _ _ (by decide)

/-- PG_EVENT of PMC is no register of a counter. -/
theorem raised_setReg {key : Nat} (h : Safety.Raised s Pg.pmc 0) (hk : key ≠ Pg.pmc + 0x20) (v : Reg) :
    Safety.Raised (s.setReg key v) Pg.pmc 0 := by
  have hfld : (s.setReg key v).fld (PG_EVENT_EVENTS Pg.pmc) = s.fld (PG_EVENT_EVENTS Pg.pmc) :=
    congrArg (fun x => bitsOf x 0 16) (State.reg_setReg_ne s v hk.symm)
  rwa [Safety.Raised, hfld]

/-- A count takes no event back. -/
theorem raised_addCount (h : Safety.Raised s Pg.pmc 0) : Safety.Raised (addCount c n s).1 Pg.pmc 0 := by
  have hcnt := raised_setReg h (cntKey_ne_event c) (s.reg (cntKey c) + BitVec.ofNat 48 n)
  rcases addCount_fst c n s with e | e <;> rw [e]
  · exact hcnt
  · unfold State.overflow; dsimp only; split
    · exact raised_raise _ _ (by decide)
    · exact raised_setReg hcnt (evselKey_ne_event c) _

end

/-! ### A wrap and its carry (R450, R452) -/

/-- Counter `c` is even, and the odd one above it is chained and enabled. -/
def State.Carries (s : State) (c : Nat) : Prop :=
  c % 2 = 0 ∧ bitsOf (s.reg (evselKey (c + 1))) 46 1 = 1 ∧ bitsOf (s.reg (evselKey (c + 1))) 47 1 = 1

section
variable {s : State} {c : Nat}

theorem toNat_of_atTop (h : s.atTop c = true) : (s.reg (cntKey c)).toNat + 1 = 2 ^ 48 := by
  simp only [State.atTop, Bool.and_eq_true, decide_eq_true_eq] at h
  exact h.2

/-- A counter at its top wraps with its next count, to 0. -/
theorem addCount_cnt_of_atTop (h : s.atTop c = true) : (addCount c 1 s).1.reg (cntKey c) = 0 := by
  rw [addCount_cnt]
  refine BitVec.eq_of_toNat_eq ?_
  rw [BitVec.toNat_add, BitVec.toNat_ofNat, Nat.mod_eq_of_lt (by decide : 1 < 2 ^ 48), toNat_of_atTop h]
  rfl

theorem addCount_of_atTop (h : s.atTop c = true) :
    addCount c 1 s = ((s.setReg (cntKey c) (s.reg (cntKey c) + 1)).overflow c, true) := by
  rw [addCount_eq, if_neg (by rw [toNat_of_atTop h]; decide)]
  rfl

theorem addCount_ovf_of_atTop (h : s.atTop c = true) : bitsOf ((addCount c 1 s).1.reg (evselKey c)) 45 1 = 1 := by
  rw [addCount_of_atTop h]; exact overflow_ovf c _

theorem addCount_raised_of_atTop (h : s.atTop c = true) (hev : bitsOf (s.reg (evselKey c)) 43 1 = 1) :
    Safety.Raised (addCount c 1 s).1 Pg.pmc 0 := by
  rw [addCount_of_atTop h]
  exact overflow_raised c _ (by rwa [State.reg_setReg_ne _ _ (cntKey_ne_evselKey c c).symm])

/-- What a counter's count does to the counter above is its carry alone. -/
theorem addCount_cnt_succ (s : State) (c n : Nat) : (addCount c n s).1.reg (cntKey (c + 1)) = s.reg (cntKey (c + 1)) :=
  addCount_regsKept c n s _ (by simp [(cntKey_succ_ne c).symm, cntKey_ne_evselKey, cntKey_ne_event])

theorem addCount_evsel_succ (s : State) (c n : Nat) : (addCount c n s).1.reg (evselKey (c + 1)) = s.reg (evselKey (c + 1)) :=
  addCount_regsKept c n s _ (by simp [(evselKey_succ_ne c).symm, (cntKey_ne_evselKey c (c + 1)).symm, evselKey_ne_event])

theorem countOn_eq (c n : Nat) (s : State) : countOn c n s = (addCount c n s).1
    ∨ countOn c n s = (addCount (c + 1) 1 (addCount c n s).1).1 := by
  unfold countOn
  dsimp only
  split
  · exact .inr rfl
  · exact .inl rfl

theorem countOn_regsOnly (s : State) (c n : Nat) : RegsOnly s (countOn c n s) := by
  rcases countOn_eq c n s with e | e <;> rw [e]
  · exact (RegsOnly.refl s).addCount c n
  · exact ((RegsOnly.refl s).addCount c n).addCount (c + 1) 1

theorem countOn_regsKept (s : State) (c n : Nat) :
    Safety.RegsKept s (countOn c n s) [cntKey c, evselKey c, cntKey (c + 1), evselKey (c + 1), Pg.pmc + 0x20] := by
  have hown : Safety.RegsKept s (addCount c n s).1 [cntKey c, evselKey c, cntKey (c + 1), evselKey (c + 1), Pg.pmc + 0x20] :=
    regsKept_addCount c n (fun _ _ => rfl) (by simp) (by simp) (by simp)
  rcases countOn_eq c n s with e | e <;> rw [e]
  · exact hown
  · exact regsKept_addCount (c + 1) 1 hown (by simp) (by simp) (by simp)

theorem countOn_cnt (s : State) (c n : Nat) : (countOn c n s).reg (cntKey c) = (addCount c n s).1.reg (cntKey c) := by
  rcases countOn_eq c n s with e | e <;> rw [e]
  exact addCount_regsKept (c + 1) 1 _ _ (by simp [cntKey_succ_ne, cntKey_ne_evselKey, cntKey_ne_event])

theorem countOn_evsel (s : State) (c n : Nat) : (countOn c n s).reg (evselKey c) = (addCount c n s).1.reg (evselKey c) := by
  rcases countOn_eq c n s with e | e <;> rw [e]
  exact addCount_regsKept (c + 1) 1 _ _ (by simp [evselKey_succ_ne, (cntKey_ne_evselKey (c + 1) c).symm, evselKey_ne_event])

theorem countOn_raised_of_atTop (h : s.atTop c = true) (hev : bitsOf (s.reg (evselKey c)) 43 1 = 1) :
    Safety.Raised (countOn c 1 s) Pg.pmc 0 := by
  rcases countOn_eq c 1 s with e | e <;> rw [e]
  · exact addCount_raised_of_atTop h hev
  · exact raised_addCount (c + 1) 1 (addCount_raised_of_atTop h hev)

/-- The wrap of an even counter is one count of the chained one above it (R450). -/
theorem countOn_carry_of_atTop (h : s.atTop c = true) (hc : s.Carries c) :
    (countOn c 1 s).reg (cntKey (c + 1)) = s.reg (cntKey (c + 1)) + 1 := by
  obtain ⟨heven, hchain, hen⟩ := hc
  have hcarry : countOn c 1 s = (addCount (c + 1) 1 (addCount c 1 s).1).1 := by
    unfold countOn
    dsimp only
    rw [addCount_evsel_succ]
    exact if_pos ⟨by rw [addCount_of_atTop h], heven, hchain, hen⟩
  rw [hcarry, addCount_cnt, addCount_cnt_succ]; rfl

/-! ### A wrap that a write overtakes (R452) -/

theorem loseWrap_lost (c : Nat) (s : State) : bitsOf ((loseWrap c s).reg (evselKey c)) 44 1 = 1 := by
  unfold loseWrap
  rw [State.reg_setReg_self, bitsOf_withBits_self _ _ _ _ (by decide)]; rfl

theorem loseWrap_cnt (c d : Nat) (s : State) : (loseWrap c s).reg (cntKey d) = s.reg (cntKey d) :=
  State.reg_setReg_ne _ _ (cntKey_ne_evselKey d c)

end

/-! ### COUNTER_WRAP -/

section
variable {s : State} {c : Fin 512}

/-- A counter that is not chained wraps by itself. -/
theorem execCounterWrap_own (hi : s.inService = true) (hown : c.val % 2 = 0 ∨ bitsOf (s.reg (evselKey c.val)) 46 1 = 0)
    (htop : s.atTop c.val = true) (written : Bool) :
    execCounterWrap c written s = finish s (if written then loseWrap c.val s else countOn c.val 1 s) := by
  have hnot : ¬(c.val % 2 = 1 ∧ bitsOf (s.reg (evselKey c.val)) 46 1 = 1) := by omega
  simp [execCounterWrap, hi, hnot, htop]

/-- A chained counter takes the wrap of the counter below it. -/
theorem execCounterWrap_chained (hi : s.inService = true) (hodd : c.val % 2 = 1) (hchain : bitsOf (s.reg (evselKey c.val)) 46 1 = 1)
    (htop : s.atTop (c.val - 1) = true) (written : Bool) :
    execCounterWrap c written s
      = finish s (if written then loseWrap c.val (addCount (c.val - 1) 1 s).1 else countOn (c.val - 1) 1 s) := by
  simp [execCounterWrap, hi, hodd, hchain, htop]

/-- R448, R450, R452: a counter at its top wraps to zero with OVF, its event and the carry. -/
theorem execCounterWrap_own_ends (hi : s.inService = true) (hown : c.val % 2 = 0 ∨ bitsOf (s.reg (evselKey c.val)) 46 1 = 0)
    (htop : s.atTop c.val = true) :
    Safety.Ends (execCounterWrap c false s) (fun t =>
      t.reg (cntKey c.val) = 0 ∧ bitsOf (t.reg (evselKey c.val)) 45 1 = 1
        ∧ (bitsOf (s.reg (evselKey c.val)) 43 1 = 1 → Safety.Raised t Pg.pmc 0)
        ∧ (c.val % 2 = 0 → bitsOf (s.reg (evselKey (c.val + 1))) 46 1 = 1 → bitsOf (s.reg (evselKey (c.val + 1))) 47 1 = 1 →
            t.reg (cntKey (c.val + 1)) = s.reg (cntKey (c.val + 1)) + 1)
        ∧ Safety.OnlyRegs s t [cntKey c.val, evselKey c.val, cntKey (c.val + 1), evselKey (c.val + 1), 0x6020]) := by
  obtain ⟨t, ht, hregs, honly⟩ := finish_onlyRegs (countOn_regsOnly s c.val 1) (countOn_regsKept s c.val 1)
  have hreg : ∀ key, t.reg key = (countOn c.val 1 s).reg key := State.reg_congr hregs
  refine ⟨t, (execCounterWrap_own hi hown htop false).trans ht, ?_, ?_, fun hev => ?_, fun heven hchain hen => ?_, honly⟩
  · rw [hreg, countOn_cnt, addCount_cnt_of_atTop htop]
  · rw [hreg, countOn_evsel, addCount_ovf_of_atTop htop]
  · rw [Safety.Raised, State.fld_congr hregs]; exact countOn_raised_of_atTop htop hev
  · rw [hreg, countOn_carry_of_atTop htop ⟨heven, hchain, hen⟩]

/-- R452: a write in the cycle of the wrap leaves OVF_LOST alone (log entry 40). -/
theorem execCounterWrap_own_overtaken_ends (hi : s.inService = true)
    (hown : c.val % 2 = 0 ∨ bitsOf (s.reg (evselKey c.val)) 46 1 = 0) (htop : s.atTop c.val = true) :
    Safety.Ends (execCounterWrap c true s) (fun t =>
      bitsOf (t.reg (evselKey c.val)) 44 1 = 1 ∧ Safety.OnlyRegs s t [evselKey c.val]) := by
  obtain ⟨t, ht, hregs, honly⟩ := finish_onlyRegs (u := loseWrap c.val s) ((RegsOnly.refl s).setReg _ _)
    (regsKept_setReg (fun _ _ => rfl) (List.mem_singleton.2 rfl) _)
  refine ⟨t, (execCounterWrap_own hi hown htop true).trans ht, ?_, honly⟩
  rw [State.reg_congr hregs, loseWrap_lost]

/-- R450: the wrap of the counter below a chained one is a count of that one. -/
theorem execCounterWrap_chained_ends (hi : s.inService = true) (hodd : c.val % 2 = 1)
    (hchain : bitsOf (s.reg (evselKey c.val)) 46 1 = 1) (htop : s.atTop (c.val - 1) = true) :
    Safety.Ends (execCounterWrap c false s) (fun t =>
      t.reg (cntKey (c.val - 1)) = 0
        ∧ (bitsOf (s.reg (evselKey c.val)) 47 1 = 1 → t.reg (cntKey c.val) = s.reg (cntKey c.val) + 1)
        ∧ Safety.OnlyRegs s t [cntKey (c.val - 1), evselKey (c.val - 1), cntKey c.val, evselKey c.val, 0x6020]) := by
  have hsucc : c.val - 1 + 1 = c.val := by omega
  have hkept := countOn_regsKept s (c.val - 1) 1
  have hcarry := countOn_carry_of_atTop htop
  rw [hsucc] at hkept
  rw [State.Carries, hsucc] at hcarry
  obtain ⟨t, ht, hregs, honly⟩ := finish_onlyRegs (countOn_regsOnly s (c.val - 1) 1) hkept
  refine ⟨t, (execCounterWrap_chained hi hodd hchain htop false).trans ht, ?_, fun hen => ?_, honly⟩
  · rw [State.reg_congr hregs, countOn_cnt, addCount_cnt_of_atTop htop]
  · rw [State.reg_congr hregs, hcarry ⟨by omega, hchain, hen⟩]

/-- R450, R452: a write of the chained counter in that cycle loses the carry alone; the counter below it wraps. -/
theorem execCounterWrap_chained_overtaken_ends (hi : s.inService = true) (hodd : c.val % 2 = 1)
    (hchain : bitsOf (s.reg (evselKey c.val)) 46 1 = 1) (htop : s.atTop (c.val - 1) = true) :
    Safety.Ends (execCounterWrap c true s) (fun t =>
      t.reg (cntKey (c.val - 1)) = 0 ∧ t.reg (cntKey c.val) = s.reg (cntKey c.val) ∧ bitsOf (t.reg (evselKey c.val)) 44 1 = 1
        ∧ Safety.OnlyRegs s t [cntKey (c.val - 1), evselKey (c.val - 1), evselKey c.val, 0x6020]) := by
  have hsucc : c.val - 1 + 1 = c.val := by omega
  have hcnt := addCount_cnt_succ s (c.val - 1) 1
  rw [hsucc] at hcnt
  have hkept : Safety.RegsKept s (addCount (c.val - 1) 1 s).1 [cntKey (c.val - 1), evselKey (c.val - 1), evselKey c.val, Pg.pmc + 0x20] :=
    regsKept_addCount _ _ (fun _ _ => rfl) (by simp) (by simp) (by simp)
  obtain ⟨t, ht, hregs, honly⟩ := finish_onlyRegs (u := loseWrap c.val (addCount (c.val - 1) 1 s).1)
    (((RegsOnly.refl s).addCount _ _).setReg _ _) (regsKept_setReg hkept (by simp) _)
  refine ⟨t, (execCounterWrap_chained hi hodd hchain htop true).trans ht, ?_, ?_, ?_, honly⟩
  · rw [State.reg_congr hregs, loseWrap_cnt, addCount_cnt_of_atTop htop]
  · rw [State.reg_congr hregs, loseWrap_cnt, hcnt]
  · rw [State.reg_congr hregs, loseWrap_lost]

end

/-! ### CLEAR_ALL (R452) -/

/-- A store kept to the keys of a predicate reads at every other key as though unlisted. -/
theorem Store.get_filter {α : Type} (dflt : Nat → α) (p : Nat → Bool) (m : Store α) (k : Nat) :
    Store.get dflt (m.filter (fun e => p e.1)) k = if p k = true then Store.get dflt m k else dflt k := by
  induction m with
  | nil => simp [Store.get]
  | cons e m ih =>
    obtain ⟨a, v⟩ := e
    by_cases ha : a = k
    · subst ha
      by_cases hp : p a = true
      · simp [hp, Store.get]
      · simpa [hp] using ih
    · by_cases hp : p a = true
      · simpa [hp, Store.get, ha] using ih
      · simpa [hp, Store.get, ha] using ih

/-- CLEAR_ALL returns the counters to their reset value and keeps every other register. -/
theorem clearCounters_reg (s : State) (key : Nat) : (clearCounters s).reg key
    = if 0x6200 ≤ key % 0x1000000 ∧ key % 0x1000000 < 0x6400 then resetValue key else s.reg key := by
  refine (Store.get_filter resetValue (fun a => decide (¬(0x6200 ≤ a % 0x1000000 ∧ a % 0x1000000 < 0x6400))) s.regs key).trans ?_
  by_cases h : 0x6200 ≤ key % 0x1000000 ∧ key % 0x1000000 < 0x6400
  · rw [if_pos h, if_neg (by simp [h])]
  · rw [if_neg h, if_pos (decide_eq_true h)]; rfl

/-- The row of the counters. -/
theorem cnt_row : ∀ k < 64, pageOf (0x6200 + 8 * k) = some (⟨.pmc, 0, 0x6, 1, 6, 0x7, 0x0, 0, [1]⟩, 0)
    ∧ findDesc (blockRegs .pmc) ((0x6200 + 8 * k) % 0x1000) = some (⟨0x200, 64, 0x8, .pmc, [⟨0, 48, .rw, 0, .any⟩]⟩, k) := by decide

/-- The reset value of a block register, by its row. -/
theorem resetValue_of_block {key n k : Nat} {p : PageInfo} {r : RegDesc} (hpage : pageOf (key % 0x1000000) = some (p, n))
    (hoff : ¬ key % 0x1000000 % 0x1000 < 0x40) (hdesc : findDesc (blockRegs p.kind) (key % 0x1000000 % 0x1000) = some (r, k)) :
    resetValue key = BitVec.ofNat 48 (blockReset p n (key % 0x1000000 % 0x1000) (key / 0x1000000) k r) := by
  unfold resetValue
  dsimp only
  rw [hpage]
  dsimp only
  rw [if_neg hoff, hdesc]

/-- A counter holds 0 at reset. -/
theorem resetValue_cntKey (c : Nat) : resetValue (cntKey c) = 0 := by
  obtain ⟨hpage, hdesc⟩ := cnt_row (c % 64) (by omega)
  rw [← cntKey_offset] at hpage hdesc
  rw [resetValue_of_block hpage (by rw [cntKey_offset]; omega) hdesc, blockReset]
  rfl

theorem clearCounters_cnt (s : State) (c : Nat) : (clearCounters s).reg (cntKey c) = 0 := by
  rw [clearCounters_reg, if_pos (by rw [cntKey_offset]; omega), resetValue_cntKey]

theorem execClearAll_ends {s : State} {path : Path} (h : Safety.Open path 0x6048 s) :
    Safety.Ends (execClearAll path s) (fun t =>
      (∀ c, c < 512 → t.reg (cntKey c) = 0)
        ∧ (∀ key, key % 0x1000000 < 0x6200 ∨ 0x6400 ≤ key % 0x1000000 → t.reg key = s.reg key) ∧ Safety.MemoryKept s t) := by
  obtain ⟨t, ht, he⟩ := write_endsAs h 1 (fun t => (clearCounters t, .ok)) rfl
  refine ⟨t, ht, fun c _ => ?_, fun key hkey => ?_, he.memoryKept ⟨rfl, rfl, rfl, rfl, rfl, rfl, rfl⟩⟩
  · rw [State.reg_congr he.regs, clearCounters_cnt]
  · rw [State.reg_congr he.regs, clearCounters_reg, if_neg (by omega)]

/-! ### Latching reads (R161, R463) -/

/-- A path reads back what its last latching read stored. -/
theorem PathLatch.of_latch (l : PathLatch) (p : Path) (v : List Reg) : (l.latch p v).of p = v := by
  cases p <;> rfl

/-- The row of FLOG_W1 to FLOG_W3. -/
theorem flogW_row : ∀ w < 3, registerAt (0x1078 + 8 * w)
    = some (⟨.kpr, 0, 0x1, 1, 1, 0x2, 0x0, 0, [5, 5, 5, 1, 7, 7, 7]⟩, 0, ⟨0x70, 4, 0x8, .none, [⟨0, 48, .ro, 0, .any⟩]⟩, w + 1) := by decide

/-- FLOG_W1 to FLOG_W3 read as latched for the path. -/
theorem readData_flogW (s : State) (path : Path) {w : Nat} (hw : w < 3) :
    s.readData path (0x1078 + 8 * w) = nth (s.kpr.flogSnap.of path) w 0 := by
  have hoff : (0x1078 + 8 * w) % 0x1000 = 0x78 + 8 * w := by omega
  have hidx : (0x78 + 8 * w - 0x78) / 8 = w := by omega
  unfold State.readData
  rw [flogW_row w hw]
  dsimp only
  unfold State.live
  dsimp only
  rw [hoff, if_neg (by omega), if_neg (by omega), if_neg (by omega), if_pos (by omega), hidx]

section
variable {s : State} {path : Path}

theorem execTimeSecRead_ends (h : Safety.OpenRead path 0x1128 s) :
    Safety.Ends (execTimeSecRead path s) (fun t =>
      t.replies.data = BitVec.ofNat 48 (secOf s.ctr) ∧ t.kpr.timeSnap.of path = [s.timeNs] ∧ t.regs = s.regs ∧ Safety.MemoryKept s t) := by
  obtain ⟨t, ht, he, hdata, -⟩ := read_endsAs h (timeSecRead path)
  refine ⟨t, ht, hdata, ?_, he.regs, he.memoryKept ⟨rfl, rfl, rfl, rfl, rfl, rfl, rfl⟩⟩
  rw [he]; exact PathLatch.of_latch _ _ _

theorem execOffsetSecRead_ends (h : Safety.OpenRead path 0x200090 s) :
    Safety.Ends (execOffsetSecRead path s) (fun t =>
      t.replies.data = s.reg 0x200090 ∧ t.servo.offsetSnap.of path = [s.reg 0x200098] ∧ t.regs = s.regs ∧ Safety.MemoryKept s t) := by
  obtain ⟨t, ht, he, hdata, -⟩ := read_endsAs h (offsetSecRead path)
  refine ⟨t, ht, hdata, ?_, he.regs, he.memoryKept ⟨rfl, rfl, rfl, rfl, rfl, rfl, rfl⟩⟩
  rw [he]; exact PathLatch.of_latch _ _ _

/-- The state with W1 to W3 latched for the path. -/
def State.flogLatched (s : State) (path : Path) (v : List Reg) : State :=
  { s with kpr := { s.kpr with flogSnap := s.kpr.flogSnap.latch path v } }

theorem flogRead_of_some {r : FaultRec} (h : s.kpr.flog.find? (fun r => r.seq = s.fld KPR.FLOG_SEL_SEQ) = some r) :
    flogRead path s = (s.flogLatched path [r.word 1, r.word 2, r.word 3], r.word 0, .ok) := by
  unfold flogRead
  dsimp only
  rw [h]
  rfl

theorem flogRead_of_none (h : s.kpr.flog.find? (fun r => r.seq = s.fld KPR.FLOG_SEL_SEQ) = none) :
    flogRead path s = (s.flogLatched path [0, 0, 0], 0, .stale) := by
  unfold flogRead
  dsimp only
  rw [h]
  rfl

/-- A read that latches three words leaves them in W1 to W3, and changes nothing that stays. -/
theorem EndsAs.flogLatched {t : State} {v1 v2 v3 : Reg} (he : EndsAs s (s.flogLatched path [v1, v2, v3]) t) :
    (t.readData path 0x1078 = v1 ∧ t.readData path 0x1080 = v2 ∧ t.readData path 0x1088 = v3)
      ∧ t.regs = s.regs ∧ t.kpr.flog = s.kpr.flog ∧ Safety.MemoryKept s t := by
  have hsnap : t.kpr.flogSnap.of path = [v1, v2, v3] := by rw [he]; exact PathLatch.of_latch _ _ _
  have hword : ∀ w, w < 3 → t.readData path (0x1078 + 8 * w) = nth [v1, v2, v3] w 0 := fun w hw =>
    (readData_flogW t path hw).trans (by rw [hsnap])
  exact ⟨⟨hword 0 (by decide), hword 1 (by decide), hword 2 (by decide)⟩, he.regs, by rw [he]; rfl,
    he.memoryKept ⟨rfl, rfl, rfl, rfl, rfl, rfl, rfl⟩⟩

/-- R463: a read of FLOG_W0 answers W0 of the selected record and latches the others; where no record is selected it answers zeros, STALE. -/
theorem execFlogW0Read_ends (h : Safety.OpenRead path 0x1070 s) :
    Safety.Ends (execFlogW0Read path s) (fun t =>
      (∀ r, s.kpr.flog.find? (fun r => r.seq = s.fld KPR.FLOG_SEL_SEQ) = some r →
          t.replies.data = r.word 0 ∧ t.readData path 0x1078 = r.word 1 ∧ t.readData path 0x1080 = r.word 2
            ∧ t.readData path 0x1088 = r.word 3)
        ∧ (s.kpr.flog.find? (fun r => r.seq = s.fld KPR.FLOG_SEL_SEQ) = none →
          t.replies.data = 0 ∧ t.replies.rsw = some (t.rsw .stale) ∧ t.readData path 0x1078 = 0 ∧ t.readData path 0x1080 = 0
            ∧ t.readData path 0x1088 = 0)
        ∧ t.regs = s.regs ∧ t.kpr.flog = s.kpr.flog ∧ Safety.MemoryKept s t) := by
  obtain ⟨t, ht, he, hdata, hrsw⟩ := read_endsAs h (flogRead path)
  cases hfind : s.kpr.flog.find? (fun r => r.seq = s.fld KPR.FLOG_SEL_SEQ) with
  | some r =>
    rw [flogRead_of_some hfind] at he hdata
    obtain ⟨hwords, hkept⟩ := he.flogLatched
    refine ⟨t, ht, ?_, fun hnone => by simp at hnone, hkept⟩
    rintro _ ⟨⟩
    exact ⟨hdata, hwords⟩
  | none =>
    rw [flogRead_of_none hfind] at he hdata hrsw
    obtain ⟨hwords, hkept⟩ := he.flogLatched
    exact ⟨t, ht, fun r hsome => by simp at hsome, fun _ => ⟨hdata, hrsw (by simp), hwords⟩, hkept⟩

end

/-- Settles O55: a wrap of a counter by itself, of a chained pair, and of either overtaken by a write; CLEAR_ALL; the three latching reads. -/
theorem countersAndLatchedReads : Obligations.CountersAndLatchedReads := by
  unfold Obligations.CountersAndLatchedReads
  intro s
  refine ⟨fun c hi hown htop => ⟨?_, ?_⟩, fun c hi hodd hchain htop => ⟨?_, ?_⟩,
    fun path => ⟨fun h => ?_, fun h => ?_, fun h => ?_, fun h => ?_⟩⟩
  · exact execCounterWrap_own_ends hi hown htop
  · exact execCounterWrap_own_overtaken_ends hi hown htop
  · exact execCounterWrap_chained_ends hi hodd hchain htop
  · exact execCounterWrap_chained_overtaken_ends hi hodd hchain htop
  · exact execClearAll_ends h
  · exact execTimeSecRead_ends h
  · exact execOffsetSecRead_ends h
  · exact execFlogW0Read_ends h

end Sys2Proof.Machine
end
